-- ==== Sys2Proof/Word.lean ====
section
/-! DEFINITION. Word types of the BEC-CTL control block: the 16-bit operation word and the 32-bit data word. -/

namespace Sys2Proof

/-- One operation word `w` (spec 30_encoding.md R100). -/
abbrev OpWord := BitVec 16

/-- One 32-bit value: the data word `d` of DLGRET (R103), a read result (R109), a display value, a tick count. -/
abbrev DataWord := BitVec 32

end Sys2Proof
end

