-- ==== Sys2Proof/Config.lean ====
section
/-! DEFINITION. The implementation parameters of the block (spec 00_scope.md R9) and the machine's own,
unknown, choice of the OPEN ones. -/

namespace Sys2Proof

/-- The OPEN parameters of R9. They are fixed for a run and no operation changes them (R273).
The fixed parameters of R9 are the constants below. -/
structure Config where
  /-- `DB_WINDOW − 1`. The range 0 .. 65534 of this field is exactly the legal range 1 .. 65535 of `DB_WINDOW`,
  so every `Config` is a legal one (log 1). -/
  windowLessOne : Fin 65535
  /-- `PRESSED_LEVEL`: the raw line level that means "pressed" (R211). -/
  pressedLevel : Bool
  /-- `T_TICK`, in a unit the spec does not name. No operation reads it (R284, D5). -/
  tTick : Nat
  deriving DecidableEq, Repr, Inhabited

/-- `DB_WINDOW`, 1 .. 65535 (R9). -/
def Config.dbWindow (c : Config) : Nat := c.windowLessOne.val + 1

/-- The latency of a debounced change in the unit of `T_TICK` (R216). -/
def Config.debounceTime (c : Config) : Nat := c.dbWindow * c.tTick

/-- FREE VALUE (log 1): the parameters this machine was built with. The spec leaves them OPEN, so nothing can be
proved about them beyond what every `Config` satisfies. -/
opaque Config.machine : Config

/-- The example configuration `EX` of R10, used by the test vectors only. R10 gives it DB_WINDOW and PRESSED_LEVEL; its
T_TICK of 1 is a DESIGN CHOICE (log 1), and no operation reads it. -/
def Config.ex : Config := { windowLessOne := 2, pressedLevel := true, tTick := 1 }

/-- `PWM_MAX`: sub-steps per period (R9). -/
abbrev pwmMax : Nat := 10
/-- `LEVEL_MIN` (R9). -/
abbrev levelMin : Nat := 5
/-- `LEVEL_MAX` (R9). -/
abbrev levelMax : Nat := 10

end Sys2Proof
end

