-- ==== Sys2Proof/Syntax.lean ====
section
/-! DEFINITION. The syntax of the block's operations: the agents, the operands, the nine operations of the opcode
table (spec 30_encoding.md R112), and an operation as an agent presents it. -/

namespace Sys2Proof

/-- The agents that perform operations (R8): the two execution contexts `TICK` and `MAIN`, and the
environment agents `READER` and `ENV`. -/
inductive Agent where
  | tick
  | main
  | reader
  | env
  deriving DecidableEq, Repr

/-- The exit request of a delegate's reply (R14, R107). -/
inductive ExitReq where
  | none
  | prev
  | full
  | rsv
  deriving DecidableEq, Repr

/-- One TimeSample record (R51, R111). The block never interprets a field and the spec gives no widths
(91_not_in_source.md N7), so each is a natural number (log 2). -/
structure TimeSample where
  year : Nat
  month : Nat
  day : Nat
  hour : Nat
  minute : Nat
  second : Nat
  deriving DecidableEq, Repr

/-- The nine rows of the opcode map (R112), without operands. -/
inductive Opcode where
  | tick
  | iter
  | dlgret
  | fade
  | bset
  | rdmode
  | rdbrt
  | rddisp
  | reset
  deriving DecidableEq, Repr

/-- The operations of the block, one constructor per row of spec/opcode_table.json. Every operand has exactly
the width of its field (R101, R102), so every value of this type has an encoding. -/
inductive Instr where
  /-- `TICK ra, rb`: the raw electrical levels of the button lines A and B (R230). -/
  | tick (ra rb : Bool)
  /-- `ITER` (R130). -/
  | iter
  /-- `DLGRET req, disp` (R140). -/
  | dlgret (req : ExitReq) (disp : DataWord)
  /-- `FADE en` (R184). -/
  | fade (en : Bool)
  /-- `BSET lvl` (R185). -/
  | bset (lvl : BitVec 4)
  /-- `RDMODE` (R145). -/
  | rdmode
  /-- `RDBRT` (R186). -/
  | rdbrt
  /-- `RDDISP` (R146). -/
  | rddisp
  /-- `RESET` (R232). -/
  | reset
  deriving DecidableEq, Repr

/-- The row of the opcode map an operation belongs to. -/
def Instr.opcode : Instr → Opcode
  | .tick _ _ => .tick
  | .iter => .iter
  | .dlgret _ _ => .dlgret
  | .fade _ => .fade
  | .bset _ => .bset
  | .rdmode => .rdmode
  | .rdbrt => .rdbrt
  | .rddisp => .rddisp
  | .reset => .reset

/-- One step's worth of input, as an agent presents it to the block: who performs it, the operation word, the
value on the data-word lines (taken only after a DLGRET word, R119 step 5) and the time source's answer
(taken only by ITER, R111). -/
structure Presented where
  agent : Agent
  word : OpWord
  data : DataWord
  time : TimeSample
  deriving DecidableEq, Repr

/-- One operation performed by one agent (R15), after decoding, with the time source's answer to it. -/
structure Performed where
  agent : Agent
  instr : Instr
  time : TimeSample
  deriving DecidableEq, Repr

end Sys2Proof
end

