-- ==== Sys2Proof/Decode.lean ====
section
/-! DEFINITION. The decoder of operation words, total on every presented word, by the procedure of spec
30_encoding.md R119, and the encoder written from the same tables (R101, R107, R112). -/

namespace Sys2Proof

/-- Why a word is turned away by the decoder (R242). -/
inductive DecodeError where
  /-- The opcode spells no operation (R113). -/
  | reservedOpcode
  /-- A must-be-zero bit of a valid opcode is 1 (R115). -/
  | nonzeroReservedBits
  /-- The performing agent is not in the row's agent set (R117). -/
  | wrongAgent
  deriving DecidableEq, Repr

/-! ## The opcode map (R112) -/

/-- The opcode field `OP = w[15:12]` (R100). -/
def opField (w : OpWord) : BitVec 4 := w.extractLsb' 12 4

/-- The row of an opcode value; `none` for the reserved opcodes of R113. -/
def Opcode.ofBits (b : BitVec 4) : Option Opcode :=
  match b with
  | 0x1#4 => some .tick
  | 0x2#4 => some .iter
  | 0x3#4 => some .dlgret
  | 0x4#4 => some .fade
  | 0x5#4 => some .bset
  | 0x6#4 => some .rdmode
  | 0x7#4 => some .rdbrt
  | 0x8#4 => some .rddisp
  | 0xF#4 => some .reset
  | _ => none

/-- The `match` column of R112. -/
def Opcode.pattern : Opcode → OpWord
  | .tick => 0x1000#16
  | .iter => 0x2000#16
  | .dlgret => 0x3000#16
  | .fade => 0x4000#16
  | .bset => 0x5000#16
  | .rdmode => 0x6000#16
  | .rdbrt => 0x7000#16
  | .rddisp => 0x8000#16
  | .reset => 0xF000#16

/-- The `mask` column of R112. -/
def Opcode.mask : Opcode → OpWord
  | .tick => 0xFFFC#16
  | .iter => 0xFFFF#16
  | .dlgret => 0xFFFC#16
  | .fade => 0xFFFE#16
  | .bset => 0xFFF0#16
  | .rdmode => 0xFFFF#16
  | .rdbrt => 0xFFFF#16
  | .rddisp => 0xFFFF#16
  | .reset => 0xFFFF#16

/-- The `agent` column of R112: the agents that may perform the operation (R117). -/
def Opcode.agents : Opcode → List Agent
  | .tick => [.tick]
  | .iter => [.main]
  | .dlgret => [.main]
  | .fade => [.main]
  | .bset => [.main]
  | .rdmode => [.main, .reader]
  | .rdbrt => [.main, .reader]
  | .rddisp => [.main, .reader]
  | .reset => [.env]

/-- The agents that may perform an operation (R117). -/
def Instr.agents (i : Instr) : List Agent := i.opcode.agents

/-- The length in bits of an operation, decided by its opcode alone, reserved or not (R118). -/
def opLength (w : OpWord) : Nat := if opField w = 0x3#4 then 48 else 16

/-! ## Operand fields (R101, R102, R104, R107) -/

/-- ExitReq codes (R107). -/
def ExitReq.code : ExitReq → BitVec 2
  | .none => 0#2
  | .prev => 1#2
  | .full => 2#2
  | .rsv => 3#2

/-- The exit request of a `REQ` field (R107). -/
def ExitReq.ofCode (c : BitVec 2) : ExitReq :=
  match c with
  | 0#2 => .none
  | 1#2 => .prev
  | 2#2 => .full
  | _ => .rsv

/-- Field extraction for a word of the given row (R101, R119 step 5). -/
def Opcode.operands (op : Opcode) (w : OpWord) (d : DataWord) : Instr :=
  match op with
  | .tick => .tick (w.getLsbD 0) (w.getLsbD 1)
  | .iter => .iter
  | .dlgret => .dlgret (ExitReq.ofCode (w.extractLsb' 0 2)) d
  | .fade => .fade (w.getLsbD 0)
  | .bset => .bset (w.extractLsb' 0 4)
  | .rdmode => .rdmode
  | .rdbrt => .rdbrt
  | .rddisp => .rddisp
  | .reset => .reset

/-! ## The decoder (R119) -/

/-- The decoding procedure of R119, in its order: reserved opcode, must-be-zero bits, agent, fields. -/
def decode (a : Agent) (w : OpWord) (d : DataWord) : Except DecodeError Instr :=
  match Opcode.ofBits (opField w) with
  | none => .error .reservedOpcode
  | some op =>
    if w &&& op.mask ≠ op.pattern then .error .nonzeroReservedBits
    else if a ∉ op.agents then .error .wrongAgent
    else .ok (op.operands w d)

/-- The decoder applied to a presented operation. -/
def Presented.decode (p : Presented) : Except DecodeError Instr := Sys2Proof.decode p.agent p.word p.data

/-! ## The encoder -/

/-- The operand fields of an operation, in place (R101). -/
def Instr.fieldBits : Instr → OpWord
  | .tick ra rb => (BitVec.ofBool ra).setWidth 16 ||| (BitVec.ofBool rb).setWidth 16 <<< 1
  | .dlgret req _ => req.code.setWidth 16
  | .fade en => (BitVec.ofBool en).setWidth 16
  | .bset lvl => lvl.setWidth 16
  | .iter | .rdmode | .rdbrt | .rddisp | .reset => 0#16

/-- The operation word of an operation (R112). -/
def encode (i : Instr) : OpWord := i.opcode.pattern ||| i.fieldBits

/-- The data word that follows the operation word, for DLGRET alone (R100, R103). -/
def encodeData : Instr → Option DataWord
  | .dlgret _ disp => some disp
  | .tick _ _ | .iter | .fade _ | .bset _ | .rdmode | .rdbrt | .rddisp | .reset => none

/-- An operation as its agent presents it. Lines that carry no data word are 0 (nothing reads them). -/
def Performed.present (p : Performed) : Presented :=
  { agent := p.agent, word := encode p.instr, data := (encodeData p.instr).getD 0#32, time := p.time }

/-! ## Words as spec/opcode_table.json numbers them -/

/-- The first agent of a word's row (any agent for a word with no row: it is refused before the agent is asked). -/
def tableAgent (w : OpWord) : Agent :=
  match Opcode.ofBits (opField w) with
  | some op => op.agents.headD .main
  | none => .main

/-- A table word as it is presented: bits 15..0 are the operation word and bits 47..16 the data word. -/
def Presented.ofTableWord (nbits w : Nat) (time : TimeSample) : Presented :=
  let v := w % 2 ^ nbits
  let word := BitVec.ofNat 16 v
  { agent := tableAgent word, word := word, data := BitVec.ofNat 32 (v / 2 ^ 16), time := time }

/-- The operation the decoder reads from a table word, performed by the first agent its row allows. -/
def decodeTableWord (nbits w : Nat) : Option Instr :=
  match (Presented.ofTableWord nbits w ⟨0, 0, 0, 0, 0, 0⟩).decode with
  | .ok i => some i
  | .error _ => none

end Sys2Proof
end

