-- ==== Sys2Proof/WellFormed.lean ====
section
/-! DEFINITION. Well-formed operations. An `Instr` is well formed by its type; a presented word and the choice of a
performing agent are not, and these are the checks on them (spec 30_encoding.md R113, R115, R117). -/

namespace Sys2Proof

/-- The word's opcode spells an operation (R113). -/
def OpWord.opcodeDefined (w : OpWord) : Bool := (Opcode.ofBits (opField w)).isSome

/-- Every must-be-zero bit of the word's row is 0 (R115). -/
def OpWord.reservedBitsZero (w : OpWord) : Bool :=
  match Opcode.ofBits (opField w) with
  | some op => w &&& op.mask == op.pattern
  | none => false

/-- The agent may perform the operation (R117). -/
def Instr.mayBePerformedBy (i : Instr) (a : Agent) : Bool := a ∈ i.agents

/-- The agent may perform the word's row (R117). -/
def OpWord.mayBePerformedBy (w : OpWord) (a : Agent) : Bool :=
  match Opcode.ofBits (opField w) with
  | some op => a ∈ op.agents
  | none => false

/-- A performed operation is well formed when its agent may perform it. -/
def Performed.wf (p : Performed) : Bool := p.instr.mayBePerformedBy p.agent

/-- A presented operation is well formed when its word has a row, its must-be-zero bits are 0 and its agent is one of
the row's. -/
def Presented.wf (p : Presented) : Bool :=
  OpWord.opcodeDefined p.word && OpWord.reservedBitsZero p.word && OpWord.mayBePerformedBy p.word p.agent

end Sys2Proof
end

