-- ==== Sys2Proof/Machine/State.lean ====
section
/-! DEFINITION. The state of the block as plain data (spec 10_state.md), the reasons a step can stop, and the state
after reset (70_reset_and_hazards.md R270). Registers are grouped by the part that owns them, as the spec groups them. -/

namespace Sys2Proof.Machine

/-! ## Enumerations -/

/-- ClockMode (R14, R105). Codes 6 and 7 are never held and have no constructor (V7). -/
inductive ClockMode where
  | fullBinary
  | subBinary
  | ballGame
  | manualSet
  | serialSet
  | paused
  deriving DecidableEq, Repr

/-- Edge (R14, R106). Code 3 is never held and has no constructor (V6). -/
inductive Edge where
  | none
  | pressed
  | released
  deriving DecidableEq, Repr

/-- FadeDir (R14, R108). -/
inductive FadeDir where
  | down
  | up
  deriving DecidableEq, Repr

/-! ## Why a step stops -/

/-- The fault reasons, exactly those of R240, each with the value R240 says is recorded. Both are the spec's own
outcomes for an environment that broke its duty; a fault is safe (it errs toward unprovable, D20). -/
inductive Fault where
  /-- Raised by ITER while a dispatch is outstanding; records the operation word. Safe. -/
  | protoIterWhilePending (word : OpWord)
  /-- Raised by DLGRET with no dispatch outstanding; records the operation word and its data word. Safe. -/
  | protoRetWithoutDispatch (word : OpWord) (data : DataWord)
  deriving DecidableEq, Repr

/-- The refusal reasons of R242, and the pipeline's own name for an arm with no meaning. -/
inductive Refusal where
  /-- An arm of exec that has no meaning yet raises it. No arm of this model does. Safe. -/
  | notModelled (mnemonic : String)
  /-- Raised by decoding: a reserved opcode (R113). Safe. -/
  | reservedOpcode
  /-- Raised by decoding: a must-be-zero bit is 1 (R115). Safe. -/
  | nonzeroReservedBits
  /-- Raised by decoding: the performing agent is not in the row's set (R117). Safe. -/
  | wrongAgent
  deriving DecidableEq, Repr

/-! ## Registers -/

/-- The Input Debouncer's registers of one button (R33, R34, R35). -/
structure ButtonRegs where
  /-- `DB_STABLE[X]`, 1 bit: true is pressed (R33). -/
  stable : Bool
  /-- `DB_CNT[X]`, 16 bits (R34). -/
  cnt : BitVec 16
  /-- `EDGE[X]` (R35). -/
  edge : Edge
  deriving DecidableEq, Repr

/-- The Brightness Controller's registers (R37 to R42). -/
structure BrightRegs where
  /-- `PWM_STEP`, 4 bits (R37). -/
  step : BitVec 4
  /-- `PWM_LEVEL`, 4 bits (R38). -/
  level : BitVec 4
  /-- `FADE_DIR` (R39). -/
  fadeDir : FadeDir
  /-- `FADE_EN`, 1 bit (R40). -/
  fadeEn : Bool
  /-- `LVL_REQ_V`, 1 bit (R41). -/
  reqValid : Bool
  /-- `LVL_REQ`, 4 bits (R41). -/
  req : BitVec 4
  /-- `PWM_OUT`, 1 bit: the soft-PWM output line (R42). -/
  out : Bool
  deriving DecidableEq, Repr

/-- The Mode State Machine's registers (R45 to R52). -/
structure ModeRegs where
  /-- `MODE` (R45). -/
  mode : ClockMode
  /-- `HIST` (R46). -/
  hist : ClockMode
  /-- `FRESH`, 1 bit (R47). -/
  fresh : Bool
  /-- `LATCH`, 1 bit (R48). -/
  latch : Bool
  /-- `PENDING`, 1 bit (R49). -/
  pending : Bool
  /-- `LAST_TCNT`, 32 bits (R50). -/
  lastTcnt : BitVec 32
  /-- `TSAMPLE` (R51). -/
  tsample : TimeSample
  /-- `DISPLAY`, 32 bits (R52). -/
  display : BitVec 32
  deriving DecidableEq, Repr

/-! ## Ports -/

/-- The dispatch record DREQ that ITER emits on the delegate port (R110). -/
structure Dreq where
  mode : ClockMode
  fresh : Bool
  edgeA : Edge
  edgeB : Edge
  level : BitVec 4
  elapsed : BitVec 32
  time : TimeSample
  deriving DecidableEq, Repr

/-- A value returned by a read operation, and the agent it is returned to (R13, R109). -/
structure ReadResult where
  agent : Agent
  value : DataWord
  deriving DecidableEq, Repr

/-- What the environment drives during the current step: the performing agent, and the time source's answer (R111). -/
structure Inputs where
  agent : Agent
  time : TimeSample
  deriving DecidableEq, Repr

/-- The whole machine. -/
structure State where
  /-- The parameters the block was built with, fixed for the run (R9, R273). -/
  cfg : Config
  /-- The debouncer's registers of button A. -/
  btnA : ButtonRegs
  /-- The debouncer's registers of button B. -/
  btnB : ButtonRegs
  /-- The Brightness Controller's registers. -/
  brt : BrightRegs
  /-- `TCNT`, 32 bits (R43). -/
  tcnt : BitVec 32
  /-- The Mode State Machine's registers. -/
  fsm : ModeRegs
  /-- The fault mark: the fault reasons raised so far (R53). -/
  faultMark : List Fault
  /-- The refusal mark (R53). -/
  refusalMark : Bool
  /-- The model's own: the input ports of the current step (log 4). -/
  input : Inputs
  /-- The model's own: the operations the agents will present, in the run's total order (R89, log 4). -/
  stream : List Presented
  /-- The model's own: the records emitted on the delegate port so far, newest first (R13, log 5). -/
  emitted : List Dreq
  /-- The model's own: the values returned by reads so far, newest first (R13, log 5). -/
  returned : List ReadResult
  deriving DecidableEq, Repr

/-! ## Reset (R270) -/

/-- The time sample TSAMPLE holds before the first ITER writes it: the spec gives it no value and no operation
observes it (R51, V10). DESIGN CHOICE, log 3. -/
def TimeSample.atReset : TimeSample := ⟨0, 0, 0, 0, 0, 0⟩

/-- One button's registers after reset (R33, R34, R35). -/
def ButtonRegs.reset : ButtonRegs := { stable := false, cnt := 0#16, edge := .none }

/-- The Brightness Controller after reset (R37 to R42). -/
def BrightRegs.reset : BrightRegs :=
  { step := 0#4, level := 10#4, fadeDir := .down, fadeEn := false, reqValid := false, req := 0#4, out := false }

/-- The Mode State Machine after reset (R45 to R52). -/
def ModeRegs.reset : ModeRegs :=
  { mode := .fullBinary, hist := .fullBinary, fresh := true, latch := false, pending := false, lastTcnt := 0#32,
    tsample := TimeSample.atReset, display := 0#32 }

/-- The state a run of a block with the parameters `c` begins in (R270, R271): nothing presented, nothing emitted. -/
def State.resetWith (c : Config) : State :=
  { cfg := c, btnA := ButtonRegs.reset, btnB := ButtonRegs.reset, brt := BrightRegs.reset, tcnt := 0#32,
    fsm := ModeRegs.reset, faultMark := [], refusalMark := false,
    input := { agent := .env, time := TimeSample.atReset }, stream := [], emitted := [], returned := [] }

/-- The machine right after reset, with this machine's own parameters (R270, log 1). -/
def State.reset : State := State.resetWith Config.machine

end Sys2Proof.Machine
end

