-- ==== Sys2Proof/Machine/Flags.lean ====
section
/-! DEFINITION. The one-bit conditions the operations test. The block has no flags (spec 40_mode_fsm.md R130); these are
the comparisons its pseudocode writes out. -/

namespace Sys2Proof.Machine

/-- The logical pressed state of a raw level (R211). -/
def logicalPressed (c : Config) (raw : Bool) : Bool := raw == c.pressedLevel

/-- `DB_CNT[X] + 1 ≥ DB_WINDOW`, in exact arithmetic (R210). -/
def windowReached (c : Config) (cnt : BitVec 16) : Bool := decide (c.dbWindow ≤ cnt.toNat + 1)

/-- `PWM_STEP < PWM_LEVEL` (R180). -/
def pwmOn (step level : BitVec 4) : Bool := decide (step.toNat < level.toNat)

/-- `PWM_STEP = PWM_MAX − 1`: this tick ends the period (R180). -/
def periodEnds (step : BitVec 4) : Bool := step.toNat == pwmMax - 1

/-- `LEVEL_MIN ≤ LVL ≤ LEVEL_MAX` (R185). -/
def levelInRange (l : BitVec 4) : Bool := decide (levelMin ≤ l.toNat) && decide (l.toNat ≤ levelMax)

/-- `(sA = 1) and (sB = 1) and (LATCH = 0)`: the chord fires (R133). -/
def chordFires (sA sB latch : Bool) : Bool := sA && sB && !latch

/-- `m ∈ {ManualSet, SerialSet}` (R135). -/
def ClockMode.isEditing : ClockMode → Bool
  | .manualSet | .serialSet => true
  | .fullBinary | .subBinary | .ballGame | .paused => false

/-- A fault or a refusal has been recorded: the state is quiescent (R243). -/
def State.halted (s : State) : Bool := !s.faultMark.isEmpty || s.refusalMark

end Sys2Proof.Machine
end

