-- ==== Sys2Proof/Machine/Operands.lean ====
section
/-! DEFINITION. The code tables of spec 30_encoding.md (R105, R106, R108) and the packed forms of results and records
(R109, R110). The operand fields of operation words are Decode.lean's. -/

namespace Sys2Proof.Machine

/-- ClockMode codes (R105). -/
def ClockMode.code : ClockMode → BitVec 3
  | .fullBinary => 0#3
  | .subBinary => 1#3
  | .ballGame => 2#3
  | .manualSet => 3#3
  | .serialSet => 4#3
  | .paused => 5#3

/-- Edge codes (R106). -/
def Edge.code : Edge → BitVec 2
  | .none => 0#2
  | .pressed => 1#2
  | .released => 2#2

/-- FadeDir codes (R108). -/
def FadeDir.code : FadeDir → BitVec 1
  | .down => 0#1
  | .up => 1#1

/-- The result of RDMODE: `zext_32(MODE)` (R109). -/
def modeResult (m : ModeRegs) : DataWord := m.mode.code.setWidth 32

/-- The result of RDBRT: `zext_32` of FADE_EN, FADE_DIR and PWM_LEVEL, most significant first (R109, R186). -/
def brightResult (b : BrightRegs) : DataWord :=
  (BitVec.ofBool b.fadeEn ++ b.fadeDir.code ++ b.level).setWidth 32

/-- The result of RDDISP (R109). -/
def displayResult (m : ModeRegs) : DataWord := m.display

/-- `DREQ.hdr`: 0000, level, edgeB, edgeA, fresh, mode, most significant first (R110). -/
def Dreq.hdr (d : Dreq) : BitVec 16 :=
  0#4 ++ d.level ++ d.edgeB.code ++ d.edgeA.code ++ BitVec.ofBool d.fresh ++ d.mode.code

end Sys2Proof.Machine
end

