-- ==== Sys2Proof/Machine/Ops.lean ====
section
/-! DEFINITION. The shared operations over the state: the output ports, ENTER, the ITER snapshot, and what a fault or
a refusal leaves behind. The block has no memory (spec 20_memory.md R80) and takes no exceptions (60_exceptions.md R249):
raising a fault ends the run, and `settle` is the one place that says in which state. -/

namespace Sys2Proof.Machine

/-! ## Output ports (R13) -/

/-- `emit DREQ`: the record goes out on the delegate port. -/
def State.emit (s : State) (d : Dreq) : State := { s with emitted := d :: s.emitted }

/-- `return v` to the agent performing the read. -/
def State.giveResult (s : State) (v : DataWord) : State :=
  { s with returned := { agent := s.input.agent, value := v } :: s.returned }

/-! ## The mode register -/

/-- The cycle order NEXT (R134). -/
def ClockMode.next : ClockMode → ClockMode
  | .fullBinary => .subBinary
  | .subBinary => .ballGame
  | .ballGame => .manualSet
  | .manualSet => .serialSet
  | .serialSet => .paused
  | .paused => .fullBinary

/-- ENTER(m): the one procedure that changes MODE (R135). -/
def ModeRegs.enter (r : ModeRegs) (m : ClockMode) : ModeRegs :=
  { r with
    hist := if m.isEditing && !r.mode.isEditing then r.mode else r.hist
    mode := m
    fresh := true }

/-! ## SNAPSHOT (R131) and CHORD (R133) -/

/-- The values SNAPSHOT takes: eA, eB, sA, sB, lvl, t, ts. -/
structure Snapshot where
  eA : Edge
  eB : Edge
  sA : Bool
  sB : Bool
  lvl : BitVec 4
  t : BitVec 32
  ts : TimeSample
  deriving DecidableEq, Repr

/-- What SNAPSHOT reads, before its clears. -/
def State.snapshot (s : State) : Snapshot :=
  { eA := s.btnA.edge, eB := s.btnB.edge, sA := s.btnA.stable, sB := s.btnB.stable, lvl := s.brt.level,
    t := s.tcnt, ts := s.input.time }

/-- EDGE[X] <- NONE: the consume of one button's edge. -/
def ButtonRegs.consume (b : ButtonRegs) : ButtonRegs := { b with edge := .none }

/-- What SNAPSHOT writes: both edges cleared, TSAMPLE taken whole from the time source. -/
def State.takeSnapshot (s : State) : State :=
  { s with btnA := s.btnA.consume, btnB := s.btnB.consume, fsm := { s.fsm with tsample := s.input.time } }

/-- The outcome of CHORD: whether it fires, the next LATCH, and the delivered edges. -/
structure Chord where
  fire : Bool
  latch : Bool
  dA : Edge
  dB : Edge
  deriving DecidableEq, Repr

/-- CHORD on a snapshot and the latch (R133). -/
def chord (latch : Bool) (n : Snapshot) : Chord :=
  let fire := chordFires n.sA n.sB latch
  let mask := latch || fire
  { fire := fire
    latch := if fire then true else if !n.sA && !n.sB then false else latch
    dA := if mask then .none else n.eA
    dB := if mask then .none else n.eB }

/-! ## Faults and refusals (R240, R242, R243) -/

/-- The refusal a decoding error is (R113, R115, R117). -/
def refusalOf : DecodeError → Refusal
  | .reservedOpcode => .reservedOpcode
  | .nonzeroReservedBits => .nonzeroReservedBits
  | .wrongAgent => .wrongAgent

/-- `raise Fault(reason)` adds the reason to the fault mark, a set, and writes no register (R240). -/
def State.recordFault (s : State) (r : Fault) : State :=
  { s with faultMark := if r ∈ s.faultMark then s.faultMark else r :: s.faultMark }

/-- `refuse(reason)` sets the refusal mark and writes no register (R242). -/
def State.recordRefusal (s : State) : State := { s with refusalMark := true }

/-- The state a run is in after a step taken at `s` that had the given outcome (log 6). -/
def settle (s : State) (o : Host.Outcome State Fault Refusal) : State :=
  match o with
  | .next t => t
  | .fault r => s.recordFault r
  | .refused _ => s.recordRefusal

end Sys2Proof.Machine
end

