-- ==== Sys2Proof/Machine/Brightness.lean ====
section
/-! DEFINITION. The Brightness Controller (spec 41_brightness.md): its part of a TICK, and FADE, BSET and RDBRT. -/

namespace Sys2Proof.Machine

/-- FADE_DIR after the level `l` is reached: DOWN at LEVEL_MAX, UP at LEVEL_MIN, else kept (R182). -/
def FadeDir.afterLevel (dir : FadeDir) (l : BitVec 4) : FadeDir :=
  if l.toNat = levelMax then .down else if l.toNat = levelMin then .up else dir

/-- One fade step of the level in the given direction, clamped to the bounds, in exact arithmetic (R182). -/
def fadeStep (dir : FadeDir) (l : BitVec 4) : BitVec 4 :=
  match dir with
  | .up => BitVec.ofNat 4 (min (l.toNat + 1) levelMax)
  | .down => BitVec.ofNat 4 (max (l.toNat - 1) levelMin)

/-- PERIOD_END: a pending request takes the period end, else an enabled fade moves the level by one (R182). -/
def BrightRegs.periodEnd (b : BrightRegs) : BrightRegs :=
  if b.reqValid then
    { b with level := b.req, fadeDir := b.fadeDir.afterLevel b.req, reqValid := false }
  else if b.fadeEn then
    let l := fadeStep b.fadeDir b.level
    { b with level := l, fadeDir := b.fadeDir.afterLevel l }
  else b

/-- PWM_TICK: the output from the step before it is incremented, then the step or the period end (R180). -/
def BrightRegs.pwmTick (b : BrightRegs) : BrightRegs :=
  let b' := { b with out := pwmOn b.step b.level }
  if periodEnds b.step then BrightRegs.periodEnd { b' with step := 0#4 }
  else { b' with step := BitVec.ofNat 4 (b.step.toNat + 1) }

/-- FADE: write the fade enable (R184). -/
def execFade (en : Bool) (s : State) : Host.Outcome State Fault Refusal :=
  .next { s with brt := { s.brt with fadeEn := en } }

/-- BSET: fill the level-request mailbox with a valid level, ignore any other (R185). -/
def execBset (lvl : BitVec 4) (s : State) : Host.Outcome State Fault Refusal :=
  .next (if levelInRange lvl then { s with brt := { s.brt with req := lvl, reqValid := true } } else s)

/-- RDBRT: return the brightness status (R186). -/
def execRdbrt (s : State) : Host.Outcome State Fault Refusal := .next (s.giveResult (brightResult s.brt))

end Sys2Proof.Machine
end

