-- ==== Sys2Proof/Machine/Debouncer.lean ====
section
/-! DEFINITION. The Input Debouncer's part of a TICK (spec 42_debouncer.md). -/

namespace Sys2Proof.Machine

/-- The edge a committed change is: PRESSED to pressed, RELEASED to released (R210). -/
def Edge.toLevel (p : Bool) : Edge := if p then .pressed else .released

/-- DB_SAMPLE(X, raw) on the registers of one button (R210). It takes one button's registers and no other, so the two
buttons are debounced independently (R212). -/
def ButtonRegs.sample (c : Config) (raw : Bool) (b : ButtonRegs) : ButtonRegs :=
  let p := logicalPressed c raw
  if p = b.stable then { stable := b.stable, cnt := 0#16, edge := .none }
  else if windowReached c b.cnt then { stable := p, cnt := 0#16, edge := Edge.toLevel p }
  else { stable := b.stable, cnt := BitVec.ofNat 16 (b.cnt.toNat + 1), edge := .none }

end Sys2Proof.Machine
end

