-- ==== Sys2Proof/Machine/ModeMachine.lean ====
section
/-! DEFINITION. The Mode State Machine and event dispatcher (spec 40_mode_fsm.md): ITER, DLGRET, RDMODE, RDDISP. -/

namespace Sys2Proof.Machine

/-- ITER's writes to the mode registers before it dispatches: LAST_TCNT, LATCH and, on a chord, ENTER(NEXT(MODE))
(R130, R132, R133, R136). `n` is the snapshot. -/
def ModeRegs.afterChord (r : ModeRegs) (n : Snapshot) : ModeRegs :=
  let ch := chord r.latch n
  let r' := { r with lastTcnt := n.t, latch := ch.latch }
  if ch.fire then r'.enter r'.mode.next else r'

/-- The record ITER dispatches: `r` the mode registers before the pass, `r'` after the chord (R110, R132, R138). -/
def dispatchRecord (r r' : ModeRegs) (n : Snapshot) : Dreq :=
  let ch := chord r.latch n
  { mode := r'.mode, fresh := r'.fresh, edgeA := ch.dA, edgeB := ch.dB, level := n.lvl,
    elapsed := n.t - r.lastTcnt, time := n.ts }

/-- The pass of an ITER that does not fault (R130): snapshot, chord, and a dispatch unless the mode is then Paused
(R137, R138). -/
def State.iterPass (s : State) : State :=
  let n := s.snapshot
  let s' := s.takeSnapshot
  let r := s'.fsm
  let r' := r.afterChord n
  if r'.mode = .paused then { s' with fsm := r' }
  else State.emit { s' with fsm := { r' with fresh := false, pending := true } } (dispatchRecord r r' n)

/-- ITER (R130). -/
def execIter (s : State) : Host.Outcome State Fault Refusal :=
  if s.fsm.pending then .fault (.protoIterWhilePending (encode .iter))
  else .next s.iterPass

/-- The mode an exit request enters, where it is valid (R141); `none` where it is ignored (R142). -/
def ModeRegs.exitTarget (r : ModeRegs) (req : ExitReq) : Option ClockMode :=
  match req with
  | .prev => if r.mode.isEditing then some r.hist else none
  | .full => if r.mode = .ballGame then some .fullBinary else none
  | .none | .rsv => none

/-- The reply's effect on the mode registers (R140). -/
def ModeRegs.reply (r : ModeRegs) (req : ExitReq) (disp : DataWord) : ModeRegs :=
  let r' := { r with display := disp, pending := false }
  match r'.exitTarget req with
  | some m => r'.enter m
  | none => r'

/-- DLGRET (R140). -/
def execDlgret (req : ExitReq) (disp : DataWord) (s : State) : Host.Outcome State Fault Refusal :=
  if s.fsm.pending then .next { s with fsm := s.fsm.reply req disp }
  else .fault (.protoRetWithoutDispatch (encode (.dlgret req disp)) disp)

/-- RDMODE (R145). -/
def execRdmode (s : State) : Host.Outcome State Fault Refusal := .next (s.giveResult (modeResult s.fsm))

/-- RDDISP (R146). -/
def execRddisp (s : State) : Host.Outcome State Fault Refusal := .next (s.giveResult (displayResult s.fsm))

end Sys2Proof.Machine
end

