-- ==== Sys2Proof/Machine/TickReset.lean ====
section
/-! DEFINITION. The two operations of no single part (spec 43_tick_and_reset.md): TICK and RESET. -/

namespace Sys2Proof.Machine

/-- TICK's first part: PWM_TICK (R180). -/
def State.pwmPart (s : State) : State := { s with brt := s.brt.pwmTick }

/-- TICK's second part: DB_SAMPLE(A, RA) (R210). -/
def State.samplePartA (ra : Bool) (s : State) : State := { s with btnA := s.btnA.sample s.cfg ra }

/-- TICK's third part: DB_SAMPLE(B, RB) (R210). -/
def State.samplePartB (rb : Bool) (s : State) : State := { s with btnB := s.btnB.sample s.cfg rb }

/-- TICK's fourth part: TCNT <- (TCNT + 1) mod 2^32 (R43). -/
def State.countPart (s : State) : State := { s with tcnt := s.tcnt + 1#32 }

/-- TICK: the four parts in the order R230 writes them. -/
def execTick (ra rb : Bool) (s : State) : Host.Outcome State Fault Refusal :=
  .next (((s.pwmPart.samplePartA ra).samplePartB rb).countPart)

/-- The registers of the block at their reset values; the parameters, the marks and the ports are no registers of the
block and stay (R232, R270). -/
def State.resetRegisters (s : State) : State :=
  { s with btnA := ButtonRegs.reset, btnB := ButtonRegs.reset, brt := BrightRegs.reset, tcnt := 0#32,
           fsm := ModeRegs.reset }

/-- RESET (R232). -/
def execReset (s : State) : Host.Outcome State Fault Refusal := .next s.resetRegisters

end Sys2Proof.Machine
end

