-- ==== Sys2Proof/Machine/Dispatch.lean ====
section
/-! DEFINITION. The one arm per operation: which meaning an operation has. -/

namespace Sys2Proof.Machine

def exec (i : Instr) (s : State) : Host.Outcome State Fault Refusal :=
  match i with
  | .tick ra rb => Sys2Proof.Machine.execTick ra rb s
  | .iter => Sys2Proof.Machine.execIter s
  | .dlgret req disp => Sys2Proof.Machine.execDlgret req disp s
  | .fade en => Sys2Proof.Machine.execFade en s
  | .bset lvl => Sys2Proof.Machine.execBset lvl s
  | .rdmode => Sys2Proof.Machine.execRdmode s
  | .rdbrt => Sys2Proof.Machine.execRdbrt s
  | .rddisp => Sys2Proof.Machine.execRddisp s
  | .reset => Sys2Proof.Machine.execReset s

end Sys2Proof.Machine
end

