-- ==== Sys2Proof/Machine/Fetch.lean ====
section
/-! DEFINITION. Taking the next presented operation from the stream, and performing an operation: the parts of a step
around `exec`. -/

namespace Sys2Proof.Machine

/-- The state in which a presented operation is executed: it has left the stream, and the input ports carry its
performing agent and its time sample. -/
def State.take (s : State) (p : Presented) (rest : List Presented) : State :=
  { s with stream := rest, input := { agent := p.agent, time := p.time } }

/-- Decode a presented operation and execute it, or refuse it (R119). -/
def perform (p : Presented) (s : State) : Host.Outcome State Fault Refusal :=
  match p.decode with
  | .ok i => exec i s
  | .error e => .refused (refusalOf e)

/-- The next step of the run (R15, R89): a halted state is quiescent (R243, log 6); with nothing presented no agent acts and
nothing changes (log 4); otherwise the first presented operation is performed. -/
def stepOn (s : State) : Host.Outcome State Fault Refusal :=
  if s.halted then .next s
  else
    match s.stream with
    | [] => .next s
    | p :: rest => perform p (s.take p rest)

/-- The presented form of a table word, put at the head of the stream. A table word carries no time sample: the one presented
with it repeats the input port's last sample (zeros after reset), where the spec leaves a free draw. DESIGN CHOICE, log 12. -/
def State.presentWord (s : State) (nbits w : Nat) : State :=
  { s with stream := Presented.ofTableWord nbits w s.input.time :: s.stream }

end Sys2Proof.Machine
end

