-- ==== Sys2Proof/Machine/Step.lean ====
section
/-! DEFINITION. One step of the machine, and how a word comes to be its next operation. The parts are Fetch.lean's. -/

namespace Sys2Proof.Machine

/-- One step: one operation performed by one agent (spec 00_scope.md R15). -/
def step (s : State) : Host.Outcome State Fault Refusal := stepOn s

/-- `s` with a table word presented as the very next operation, by the first agent its row allows (log 4; its time sample: log 12). -/
def State.withFetchWord (s : State) (nbits w : Nat) : State := s.presentWord nbits w

/-- The state a run is in after one more step: a next state, or the marks a fault or a refusal leaves (R240, R242). -/
def advance (s : State) : State := settle s (step s)

end Sys2Proof.Machine
end

