-- ==== Sys2Proof/Machine/Assembler.lean ====
section
/-! DEFINITION. The spec's assembler syntax and pseudo-operations (30_encoding.md R120, R121). Text is a list of characters.
No step reads this file: it says which operations a line of assembler stands for. -/

namespace Sys2Proof.Machine

/-- What one line names: an operation, or a pseudo-operation of R121. -/
inductive AsmOp where
  | op (i : Instr)
  /-- `HOLD pa, pb, n`: the logical pressed states, n times. -/
  | hold (pa pb : Bool) (n : Nat)
  /-- `PERIOD ra, rb`. -/
  | period (ra rb : Bool)
  | fadeOn
  | fadeOff
  /-- `PASS req, disp`: one main-loop pass. -/
  | pass (req : ExitReq) (disp : DataWord)
  deriving DecidableEq, Repr

/-- One line: an optional agent prefix and an operation (R120). -/
structure AsmLine where
  agent : Option Agent
  op : AsmOp
  deriving DecidableEq, Repr

/-! ## Expansion (R121) -/

/-- The raw level of a logical pressed state: the inverse of R211. -/
def rawLevel (c : Config) (p : Bool) : Bool := if p then c.pressedLevel else !c.pressedLevel

/-- Whether an ITER at `s` emits a dispatch (R138). An ITER that completes was not pending, so it leaves PENDING set exactly
when it dispatched; an ITER that faults emits nothing (R130). -/
def State.iterEmits (s : State) : Bool :=
  match execIter s with
  | .next t => t.fsm.pending
  | .fault _ => false
  | .refused _ => false

/-- The operations a line stands for, performed from the state `s`. Only PASS depends on more of the state than the
parameters: its DLGRET is there if and only if the ITER emits a dispatch. -/
def AsmOp.expand (s : State) : AsmOp → List Instr
  | .op i => [i]
  | .hold pa pb n => List.replicate n (.tick (rawLevel s.cfg pa) (rawLevel s.cfg pb))
  | .period ra rb => List.replicate pwmMax (.tick ra rb)
  | .fadeOn => [.fade true]
  | .fadeOff => [.fade false]
  | .pass req disp => .iter :: if s.iterEmits then [.dlgret req disp] else []

/-! ## Numbers -/

/-- The value of a decimal digit. -/
def decValue (c : Char) : Option Nat := if 48 ≤ c.toNat ∧ c.toNat ≤ 57 then some (c.toNat - 48) else none

/-- The value of a hexadecimal digit, of either case. -/
def hexValue (c : Char) : Option Nat :=
  if 48 ≤ c.toNat ∧ c.toNat ≤ 57 then some (c.toNat - 48)
  else if 65 ≤ c.toNat ∧ c.toNat ≤ 70 then some (c.toNat - 55)
  else if 97 ≤ c.toNat ∧ c.toNat ≤ 102 then some (c.toNat - 87)
  else none

/-- A number in the given base after the digits already read. -/
def digitsValue (base : Nat) (value : Char → Option Nat) : Nat → List Char → Option Nat
  | acc, [] => some acc
  | acc, c :: cs =>
    match value c with
    | some v => digitsValue base value (base * acc + v) cs
    | none => none

/-- A decimal number of at least one digit. -/
def parseDec (t : List Char) : Option Nat := if t.isEmpty then none else digitsValue 10 decValue 0 t

/-- The digits of a hexadecimal number without its optional `0x`. -/
def hexDigits (t : List Char) : List Char :=
  match t with
  | '0' :: 'x' :: ds => ds
  | ds => ds

/-- A 32-bit hexadecimal number of at least one digit, with or without `0x` (the vectors of 95_test_vectors.md write both). -/
def parseHex32 (t : List Char) : Option DataWord :=
  if (hexDigits t).isEmpty then none
  else
    match digitsValue 16 hexValue 0 (hexDigits t) with
    | some n => if n < 2 ^ 32 then some (BitVec.ofNat 32 n) else none
    | none => none

/-! ## Operands -/

/-- `ra`, `rb`, `en`: 0 or 1. -/
def parseBit (t : List Char) : Option Bool :=
  if t = ['0'] then some false else if t = ['1'] then some true else none

/-- `lvl`: a decimal number from 0 to 15. -/
def parseLvl (t : List Char) : Option (BitVec 4) :=
  match parseDec t with
  | some n => if n < 16 then some (BitVec.ofNat 4 n) else none
  | none => none

/-- `req`: a name or the code 0..3. -/
def parseReq (t : List Char) : Option ExitReq :=
  if t = "NONE".toList ∨ t = ['0'] then some .none
  else if t = "PREV".toList ∨ t = ['1'] then some .prev
  else if t = "FULL".toList ∨ t = ['2'] then some .full
  else if t = "RSV".toList ∨ t = ['3'] then some .rsv
  else none

/-- The agent a prefix names. -/
def parseAgent (t : List Char) : Option Agent :=
  if t = "T:".toList then some .tick
  else if t = "M:".toList then some .main
  else if t = "R:".toList then some .reader
  else if t = "E:".toList then some .env
  else none

/-! ## Lines -/

/-- A finished token, if there is one, before the tokens that follow. The token's characters are reversed. -/
def pushToken (cur : List Char) (rest : List (List Char)) : List (List Char) :=
  if cur.isEmpty then rest else cur.reverse :: rest

/-- The tokens of a line: separated by blanks, a comma a token of its own, the comment left out. -/
def tokens : List Char → List Char → List (List Char)
  | cur, [] => pushToken cur []
  | cur, c :: cs =>
    if c = ';' then pushToken cur []
    else if c = ' ' then pushToken cur (tokens [] cs)
    else if c = ',' then pushToken cur ([','] :: tokens [] cs)
    else tokens (c :: cur) cs

/-- A mnemonic with no operand. -/
def parseOp0 (m : List Char) : Option AsmOp :=
  if m = "ITER".toList then some (.op .iter)
  else if m = "RDMODE".toList then some (.op .rdmode)
  else if m = "RDBRT".toList then some (.op .rdbrt)
  else if m = "RDDISP".toList then some (.op .rddisp)
  else if m = "RESET".toList then some (.op .reset)
  else if m = "FADEON".toList then some .fadeOn
  else if m = "FADEOFF".toList then some .fadeOff
  else none

/-- A mnemonic with one operand. -/
def parseOp1 (m a : List Char) : Option AsmOp :=
  if m = "FADE".toList then (parseBit a).map fun en => .op (.fade en)
  else if m = "BSET".toList then (parseLvl a).map fun l => .op (.bset l)
  else none

/-- A mnemonic with two operands. -/
def parseOp2 (m a b : List Char) : Option AsmOp :=
  if m = "TICK".toList then
    match parseBit a, parseBit b with
    | some ra, some rb => some (.op (.tick ra rb))
    | _, _ => none
  else if m = "DLGRET".toList then
    match parseReq a, parseHex32 b with
    | some req, some disp => some (.op (.dlgret req disp))
    | _, _ => none
  else if m = "PERIOD".toList then
    match parseBit a, parseBit b with
    | some ra, some rb => some (.period ra rb)
    | _, _ => none
  else if m = "PASS".toList then
    match parseReq a, parseHex32 b with
    | some req, some disp => some (.pass req disp)
    | _, _ => none
  else none

/-- A mnemonic with three operands. -/
def parseOp3 (m a b n : List Char) : Option AsmOp :=
  if m = "HOLD".toList then
    match parseBit a, parseBit b, parseDec n with
    | some pa, some pb, some k => some (.hold pa pb k)
    | _, _, _ => none
  else none

/-- The operation of a line's tokens, the agent prefix taken off. -/
def parseOp (ts : List (List Char)) : Option AsmOp :=
  match ts with
  | [m] => parseOp0 m
  | [m, a] => parseOp1 m a
  | [m, a, [','], b] => parseOp2 m a b
  | [m, a, [','], b, [','], n] => parseOp3 m a b n
  | _ => none

/-- One line of assembler (R120). -/
def parseLine (text : List Char) : Option AsmLine :=
  match tokens [] text with
  | [] => none
  | t :: ts =>
    match parseAgent t with
    | some a => (parseOp ts).map fun o => { agent := some a, op := o }
    | none => (parseOp (t :: ts)).map fun o => { agent := none, op := o }

/-! ## Writing a line -/

/-- A hexadecimal digit. -/
def hexChar (v : BitVec 4) : Char := Char.ofNat (if v.toNat < 10 then 48 + v.toNat else 55 + v.toNat)

/-- A 32-bit number as `0x` and eight hexadecimal digits. -/
def renderHex32 (d : DataWord) : List Char :=
  '0' :: 'x' :: [hexChar (d.extractLsb' 28 4), hexChar (d.extractLsb' 24 4), hexChar (d.extractLsb' 20 4),
    hexChar (d.extractLsb' 16 4), hexChar (d.extractLsb' 12 4), hexChar (d.extractLsb' 8 4),
    hexChar (d.extractLsb' 4 4), hexChar (d.extractLsb' 0 4)]

/-- 0 or 1. -/
def renderBit (b : Bool) : List Char := if b then ['1'] else ['0']

/-- A decimal number from 0 to 15. -/
def renderLvl (l : BitVec 4) : List Char :=
  if l.toNat < 10 then [Char.ofNat (48 + l.toNat)] else ['1', Char.ofNat (38 + l.toNat)]

/-- The name of an exit request. -/
def renderReq : ExitReq → List Char
  | .none => "NONE".toList
  | .prev => "PREV".toList
  | .full => "FULL".toList
  | .rsv => "RSV".toList

/-- The agent prefix of a line. -/
def renderAgent : Option Agent → List Char
  | none => []
  | some .tick => "T: ".toList
  | some .main => "M: ".toList
  | some .reader => "R: ".toList
  | some .env => "E: ".toList

/-- An operation in the spelling of R120. -/
def Instr.render : Instr → List Char
  | .tick ra rb => "TICK ".toList ++ renderBit ra ++ ", ".toList ++ renderBit rb
  | .iter => "ITER".toList
  | .dlgret req disp => "DLGRET ".toList ++ renderReq req ++ ", ".toList ++ renderHex32 disp
  | .fade en => "FADE ".toList ++ renderBit en
  | .bset lvl => "BSET ".toList ++ renderLvl lvl
  | .rdmode => "RDMODE".toList
  | .rdbrt => "RDBRT".toList
  | .rddisp => "RDDISP".toList
  | .reset => "RESET".toList

/-- A line with an operation. -/
def renderLine (a : Option Agent) (i : Instr) : List Char := renderAgent a ++ Instr.render i

end Sys2Proof.Machine
end

