-- ==== Sys2Proof/Safety.lean ====
section
/-! DEFINITION. The terms claims are stated in: the invariants of spec 10_state.md R55, runs of performed operations, what
a run shows, and the opcode map of 30_encoding.md R112 written out as numbers. -/

namespace Sys2Proof.Safety

open Sys2Proof Sys2Proof.Machine

/-! ## The invariants (R55) -/

/-- I-D1 for one button (R55). I-D2 holds by type: there is no edge code 3. -/
def ButtonInv (c : Config) (b : ButtonRegs) : Prop := b.cnt.toNat < c.dbWindow

/-- I-B1 to I-B4 (R55). -/
structure BrightInv (b : BrightRegs) : Prop where
  levelLow : 5 ≤ b.level.toNat
  levelHigh : b.level.toNat ≤ 10
  upBelowMax : b.fadeDir = .up → b.level.toNat < 10
  downAboveMin : b.fadeDir = .down → 5 < b.level.toNat
  stepLegal : b.step.toNat ≤ 9
  requestLegal : b.reqValid = true → 5 ≤ b.req.toNat ∧ b.req.toNat ≤ 10

/-- I-M2 and I-M3 (R55). I-M1 holds by type: there are no mode codes 6 and 7. -/
structure ModeInv (r : ModeRegs) : Prop where
  histIsDisplayMode : r.hist = .fullBinary ∨ r.hist = .ballGame
  pendingNotPaused : r.pending = true → r.mode ≠ .paused

/-- The invariants of R55, all of them. -/
structure Invariants (s : State) : Prop where
  buttonA : ButtonInv s.cfg s.btnA
  buttonB : ButtonInv s.cfg s.btnB
  bright : BrightInv s.brt
  mode : ModeInv s.fsm

/-- While a dispatch is outstanding, the newest record on the delegate port asked the delegate of the active mode (R49,
R138). -/
def PendingMatchesDispatch (s : State) : Prop :=
  s.fsm.pending = true → ∃ d rest, s.emitted = d :: rest ∧ d.mode = s.fsm.mode

/-! ## Runs of the machine -/

/-- `n` steps, stopping at the first fault or refusal (the host's `Core.run`, with the machine's own types). -/
def runSteps : Nat → State → Host.Outcome State Fault Refusal
  | 0, s => .next s
  | n + 1, s =>
    match step s with
    | .next t => runSteps n t
    | .fault r => .fault r
    | .refused r => .refused r

/-- The machine's own step with `p` presented as the one next operation. -/
def stepWith (p : Presented) (s : State) : Host.Outcome State Fault Refusal := step { s with stream := [p] }

/-- The first `n` steps of the run in which the agents present `ops 0`, `ops 1`, … from reset, as a finite run of the machine. -/
def firstSteps (c : Config) (ops : Nat → Presented) (n : Nat) : Host.Outcome State Fault Refusal :=
  runSteps n { State.resetWith c with stream := (List.range n).map ops }

/-- An infinite run (R15): it starts in the reset state, and step `n` performs the operation `ops n` and leads from
`states n` to `states (n + 1)`. Every step of it completes, for after a fault or a refusal no step is taken (R243). The
sequence is no part of State, whose stream is finite data (log 4). -/
structure InfiniteRun (c : Config) (ops : Nat → Presented) (states : Nat → State) : Prop where
  start : states 0 = State.resetWith c
  next : ∀ n, stepWith (ops n) (states n) = .next (states (n + 1))

/-! ## Runs of performed operations -/

/-- The state with the input ports set for one performed operation. -/
def withInputs (s : State) (p : Performed) : State := { s with input := { agent := p.agent, time := p.time } }

/-- One operation performed by one agent. -/
def performOne (p : Performed) (s : State) : Host.Outcome State Fault Refusal := exec p.instr (withInputs s p)

/-- A sequence of performed operations, in the run's total order (R89). It stops at the first fault or refusal. -/
def performAll : List Performed → State → Host.Outcome State Fault Refusal
  | [], s => .next s
  | p :: ps, s =>
    match performOne p s with
    | .next t => performAll ps t
    | .fault r => .fault r
    | .refused r => .refused r

/-- Every state of the run, the first and the last among them, satisfies `P`. -/
def Along (P : State → Prop) : List Performed → State → Prop
  | [], s => P s
  | p :: ps, s =>
    P s ∧
      match performOne p s with
      | .next t => Along P ps t
      | .fault _ => True
      | .refused _ => True

/-- The registers of the block and its parameters, the model's marks and ports left out. -/
def SameRegisters (s t : State) : Prop :=
  s.cfg = t.cfg ∧ s.btnA = t.btnA ∧ s.btnB = t.btnB ∧ s.brt = t.brt ∧ s.tcnt = t.tcnt ∧ s.fsm = t.fsm

/-! ## Kinds of operations -/

/-- A TICK. -/
def isTick : Instr → Bool
  | .tick _ _ => true
  | .iter | .dlgret _ _ | .fade _ | .bset _ | .rdmode | .rdbrt | .rddisp | .reset => false

/-- RDMODE, RDBRT or RDDISP. -/
def isRead : Instr → Bool
  | .rdmode | .rdbrt | .rddisp => true
  | .tick _ _ | .iter | .dlgret _ _ | .fade _ | .bset _ | .reset => false

/-- What the Brightness Controller sees of an operation: a TICK whatever its raw levels, FADE, BSET, RESET, and nothing
of any other. -/
def brightView : Instr → Option Instr
  | .tick _ _ => some (.tick false false)
  | .fade en => some (.fade en)
  | .bset lvl => some (.bset lvl)
  | .reset => some .reset
  | .iter | .dlgret _ _ | .rdmode | .rdbrt | .rddisp => none

/-- The run holds no RESET. -/
def NoReset (l : List Performed) : Prop := ∀ p ∈ l, p.instr ≠ .reset

/-- The number of TICKs of a run. -/
def countTicks (l : List Performed) : Nat := l.countP fun p => isTick p.instr

/-! ## What a run shows -/

/-- The number of TICKs of a run that drive PWM_OUT to 1. -/
def onTicks : List Performed → State → Nat
  | [], _ => 0
  | p :: ps, s =>
    match performOne p s with
    | .next t => (if isTick p.instr && t.brt.out then 1 else 0) + onTicks ps t
    | .fault _ => 0
    | .refused _ => 0

/-- The two buttons (R9). -/
inductive Button where
  | A
  | B
  deriving DecidableEq, Repr

/-- `REG[X]`: the debouncer's registers of one button (R12). -/
def button (x : Button) (s : State) : ButtonRegs :=
  match x with
  | .A => s.btnA
  | .B => s.btnB

/-- The raw level of one button's line that an operation carries; only a TICK carries one (R102). -/
def rawOf (x : Button) : Instr → Option Bool
  | .tick ra rb =>
    match x with
    | .A => some ra
    | .B => some rb
  | .iter | .dlgret _ _ | .fade _ | .bset _ | .rdmode | .rdbrt | .rddisp | .reset => none

/-- The edges one button's samples produce, one entry per TICK of the run. -/
def edgesOf (x : Button) : List Performed → State → List Edge
  | [], _ => []
  | p :: ps, s =>
    match performOne p s with
    | .next t => if isTick p.instr then (button x t).edge :: edgesOf x ps t else edgesOf x ps t
    | .fault _ => []
    | .refused _ => []

/-- Every TICK of the run samples the logical level `v` on the button's line. -/
def Holds (c : Config) (x : Button) (v : Bool) (l : List Performed) : Prop :=
  ∀ p ∈ l, ∀ raw, rawOf x p.instr = some raw → (raw == c.pressedLevel) = v

/-- Edges as they come from a stable level: PRESSED only from released to pressed, RELEASED only from pressed to released
(R215). -/
def alternates : Bool → List Edge → Prop
  | _, [] => True
  | st, .none :: es => alternates st es
  | st, .pressed :: es => st = false ∧ alternates true es
  | st, .released :: es => st = true ∧ alternates false es

/-- The stable level a sequence of edges leads to. -/
def levelAfter : Bool → List Edge → Bool
  | st, [] => st
  | st, .none :: es => levelAfter st es
  | _, .pressed :: es => levelAfter true es
  | _, .released :: es => levelAfter false es

/-- The level after `k` period ends of the ping-pong fade from 10, DOWN (R183): 10, 9, 8, 7, 6, 5, 6, 7, 8, 9, 10, … -/
def pingPongLevel (k : Nat) : Nat := if k % 10 ≤ 5 then 10 - k % 10 else k % 10

/-- The direction after `k` period ends of the ping-pong fade (R183). -/
def pingPongDir (k : Nat) : FadeDir := if k % 10 < 5 then .down else .up

/-! ## The opcode map as numbers (R112, R113) -/

/-- One row of R112. -/
structure MapRow where
  op : Nat
  opcode : Opcode
  pattern : OpWord
  mask : OpWord
  agents : List Agent
  deriving DecidableEq, Repr

/-- The rows of R112, as its table writes them. -/
def opcodeMap : List MapRow :=
  [ ⟨0x1, .tick, 0x1000#16, 0xFFFC#16, [.tick]⟩,
    ⟨0x2, .iter, 0x2000#16, 0xFFFF#16, [.main]⟩,
    ⟨0x3, .dlgret, 0x3000#16, 0xFFFC#16, [.main]⟩,
    ⟨0x4, .fade, 0x4000#16, 0xFFFE#16, [.main]⟩,
    ⟨0x5, .bset, 0x5000#16, 0xFFF0#16, [.main]⟩,
    ⟨0x6, .rdmode, 0x6000#16, 0xFFFF#16, [.main, .reader]⟩,
    ⟨0x7, .rdbrt, 0x7000#16, 0xFFFF#16, [.main, .reader]⟩,
    ⟨0x8, .rddisp, 0x8000#16, 0xFFFF#16, [.main, .reader]⟩,
    ⟨0xF, .reset, 0xF000#16, 0xFFFF#16, [.env]⟩ ]

/-- The opcodes of R113. -/
def reservedOpcodes : List Nat := [0x0, 0x9, 0xA, 0xB, 0xC, 0xD, 0xE]

end Sys2Proof.Safety
end

