-- ==== Sys2Proof/Certificates/Slice0/Obligations.lean ====
section
/-! DEFINITION. The statements for the provers, from the numbered rules of the spec. Registers are named in the docstrings
as the spec names them. A statement of the form "exec i s = .next t" with `t` written out is the operation's completion,
its result and its frame at once: everything not written in `t` is unchanged. -/

open Sys2Proof Sys2Proof.Machine Sys2Proof.Safety

/-! ## Encoding -/

/-- R119, R113, R115, R117, R112: the decoder answers the first refusal that applies, in the order reserved opcode,
must-be-zero bits, agent; otherwise an operation of the row. The map is the table of R112 written out as numbers. -/
def Obligations.DecodeFollowsTheProcedure : Prop :=
  ∀ (a : Agent) (w : OpWord) (d : DataWord),
    (w.toNat / 4096 ∈ reservedOpcodes → decode a w d = .error .reservedOpcode) ∧
    ∀ row ∈ opcodeMap, row.op = w.toNat / 4096 →
      (w &&& row.mask ≠ row.pattern → decode a w d = .error .nonzeroReservedBits) ∧
      (w &&& row.mask = row.pattern → a ∉ row.agents → decode a w d = .error .wrongAgent) ∧
      (w &&& row.mask = row.pattern → a ∈ row.agents → ∃ i, decode a w d = .ok i ∧ i.opcode = row.opcode)

/-- R112, R113: every opcode value is reserved or has exactly one row, so every word falls under one clause of the
procedure. -/
def Obligations.EveryOpcodeIsReservedOrHasOneRow : Prop :=
  ∀ op : Nat, op < 16 →
    (op ∈ reservedOpcodes ∧ ∀ row ∈ opcodeMap, row.op ≠ op) ∨
    (op ∉ reservedOpcodes ∧ ∃ row ∈ opcodeMap, row.op = op ∧ ∀ row' ∈ opcodeMap, row'.op = op → row' = row)

/-- R101, R102, R103, R104: the operands of a decoded operation are the bits of the word, and the data word. -/
def Obligations.DecodedOperandsAreTheWordsBits : Prop :=
  ∀ (a : Agent) (w : OpWord) (d : DataWord) (i : Instr), decode a w d = .ok i →
    match i with
    | .tick ra rb => ra = w.getLsbD 0 ∧ rb = w.getLsbD 1
    | .dlgret req disp =>
        disp = d ∧
        w.toNat % 4 = (match req with | .none => 0 | .prev => 1 | .full => 2 | .rsv => 3)
    | .fade en => en = w.getLsbD 0
    | .bset lvl => lvl.toNat = w.toNat % 16
    | .iter | .rdmode | .rdbrt | .rddisp | .reset => True

/-- R100, R101, R112, R117: decoding an encoded operation gives it back with every operand, for every operation and
every value of its operands; performed by an agent outside its row it is refused as WRONG_AGENT. -/
def Obligations.DecodeInvertsEncode : Prop :=
  ∀ p : Performed, p.present.decode = if p.instr.mayBePerformedBy p.agent then .ok p.instr else .error .wrongAgent

/-- R114, R118: a word that decodes is the encoding of what it decodes to, so no two words of one operation differ; a data
word is taken exactly by DLGRET. -/
def Obligations.EncodeInvertsDecode : Prop :=
  ∀ (a : Agent) (w : OpWord) (d : DataWord) (i : Instr), decode a w d = .ok i →
    encode i = w ∧ encodeData i = (if w.toNat / 4096 = 3 then some d else none)

/-- R113, R115, R117: the decoder accepts exactly the well-formed presented operations. -/
def Obligations.DecoderAcceptsExactlyTheWellFormed : Prop :=
  ∀ p : Presented, (∃ i, p.decode = .ok i) ↔ p.wf = true

/-- R118: the length is decided by the opcode alone, reserved or not: 48 bits for OP = 0x3, 16 for every other. -/
def Obligations.LengthIsDecidedByTheOpcode : Prop :=
  ∀ w : OpWord, (w.toNat / 4096 = 3 → opLength w = 48) ∧ (w.toNat / 4096 ≠ 3 → opLength w = 16)

/-- Words written out from R101, R107 and R112, one of each row, and what they decode to. -/
def Obligations.ExampleWordsDecode : Prop :=
  decode .tick 0x1001#16 0#32 = .ok (.tick true false) ∧
  decode .tick 0x1002#16 0#32 = .ok (.tick false true) ∧
  decode .main 0x2000#16 0#32 = .ok .iter ∧
  decode .main 0x3001#16 0x12345678#32 = .ok (.dlgret .prev 0x12345678#32) ∧
  decode .main 0x4001#16 0#32 = .ok (.fade true) ∧
  decode .main 0x5006#16 0#32 = .ok (.bset 6#4) ∧
  decode .reader 0x6000#16 0#32 = .ok .rdmode ∧
  decode .reader 0x7000#16 0#32 = .ok .rdbrt ∧
  decode .main 0x8000#16 0#32 = .ok .rddisp ∧
  decode .env 0xF000#16 0#32 = .ok .reset

/-- R110: the packed header of a dispatch record, field by field. -/
def Obligations.DispatchHeaderLayout : Prop :=
  ∀ d : Dreq,
    d.hdr.toNat =
      (match d.mode with
        | .fullBinary => 0 | .subBinary => 1 | .ballGame => 2 | .manualSet => 3 | .serialSet => 4 | .paused => 5) +
      (if d.fresh then 8 else 0) +
      16 * (match d.edgeA with | .none => 0 | .pressed => 1 | .released => 2) +
      64 * (match d.edgeB with | .none => 0 | .pressed => 1 | .released => 2) +
      256 * d.level.toNat

/-- R120: reading back a line of assembler gives the operation and the agent prefix it was written from (the text where R120
is silent is the model's choice, log 8). -/
def Obligations.AssemblerReadsBackWhatItWrites : Prop :=
  ∀ (a : Option Agent) (i : Instr), parseLine (renderLine a i) = some { agent := a, op := .op i }

/-! ## The step -/

/-- A step performs the presented operation: where the decoder gives an operation, the step is its `exec`, on the state
with the operation taken off the stream and its agent and time sample on the input ports (the model's stream, log 4). -/
def Obligations.StepPerformsTheDecodedOperation : Prop :=
  ∀ (s : State) (p : Presented) (rest : List Presented) (i : Instr),
    s.halted = false → s.stream = p :: rest → decode p.agent p.word p.data = .ok i →
      step s = exec i { s with stream := rest, input := { agent := p.agent, time := p.time } }

/-- R113, R115, R117, R242: a word the decoder turns away is refused, under the decoder's reason. -/
def Obligations.StepRefusesTheUndecodable : Prop :=
  ∀ (s : State) (p : Presented) (rest : List Presented) (e : DecodeError),
    s.halted = false → s.stream = p :: rest → decode p.agent p.word p.data = .error e →
      step s = .refused (match e with
        | .reservedOpcode => .reservedOpcode
        | .nonzeroReservedBits => .nonzeroReservedBits
        | .wrongAgent => .wrongAgent)

/-- R251: a word the decoder turns away is refused whatever the operation's own fault check would say; the fault check is
made only for a word performed by an agent of its row. -/
def Obligations.RefusalComesBeforeTheFaultCheck : Prop :=
  ∀ (s : State) (p : Presented) (rest : List Presented) (f : Fault),
    s.stream = p :: rest → step s = .fault f → ∃ i, decode p.agent p.word p.data = .ok i

/-- R240, R242: a step that faults or is refused changes nothing but the mark it leaves, and the state it leaves is
halted (`advance` is the model's way to tell that state, log 6). -/
def Obligations.FaultAndRefusalWriteOnlyTheirMark : Prop :=
  (∀ (s : State) (f : Fault), step s = .fault f →
    ∃ marks, advance s = { s with faultMark := marks } ∧ (∀ g, g ∈ marks ↔ g = f ∨ g ∈ s.faultMark) ∧
      (advance s).halted = true) ∧
  (∀ (s : State) (r : Refusal), step s = .refused r →
    advance s = { s with refusalMark := true } ∧ (advance s).halted = true)

/-- R243: after a fault or a refusal no agent takes any further step, RESET included, and the marks are never cleared: the
state stays as it is for any number of steps, whatever is presented (that a quiescent step answers the same state is the
model's choice, log 6). -/
def Obligations.HaltedStateIsQuiescent : Prop :=
  ∀ (s : State) (n : Nat), s.faultMark ≠ [] ∨ s.refusalMark = true →
    runSteps n s = .next s ∧ advance s = s

/-- R241, R240: the only faults are an ITER while a dispatch is outstanding and a DLGRET with none outstanding, and no
decoded operation is refused. -/
def Obligations.OnlyProtocolViolationsFault : Prop :=
  ∀ (i : Instr) (s : State),
    (∀ f, exec i s = .fault f ↔
      (i = .iter ∧ s.fsm.pending = true ∧ f = .protoIterWhilePending 0x2000#16) ∨
      (∃ req disp, i = .dlgret req disp ∧ s.fsm.pending = false ∧
        f = .protoRetWithoutDispatch (encode i) disp)) ∧
    ∀ r, exec i s ≠ .refused r

/-- R89, R100: running a stream of encoded operations (the model's, log 4) is performing the operations: every claim about
`performAll` is a claim about runs of the machine. -/
def Obligations.RunOfEncodedStreamPerformsTheOperations : Prop :=
  ∀ (l : List Performed) (s : State) (rest : List Presented),
    s.halted = false → (∀ p ∈ l, p.wf = true) →
      runSteps l.length { s with stream := l.map Performed.present ++ rest } = performAll l { s with stream := rest }

/-- R273: no step changes the parameters, over any number of steps of any stream. -/
def Obligations.ParametersAreFixedForTheRun : Prop :=
  ∀ (n : Nat) (s t : State), runSteps n s = .next t → t.cfg = s.cfg

/-! ## TICK -/

/-- R180: PWM_OUT is computed from the step before it is incremented; PWM_STEP wraps from 9 to 0. -/
def Obligations.TickDrivesTheSoftPwm : Prop :=
  ∀ (ra rb : Bool) (s : State), ∃ t, exec (.tick ra rb) s = .next t ∧
    t.brt.out = decide (s.brt.step.toNat < s.brt.level.toNat) ∧
    (s.brt.step.toNat = 9 → t.brt.step.toNat = 0) ∧
    (s.brt.step.toNat < 9 → t.brt =
      { s.brt with out := decide (s.brt.step.toNat < s.brt.level.toNat), step := s.brt.step + 1#4 })

/-- R182: at the period end a pending request takes the level and clears; without one an enabled fade moves the level by
one in FADE_DIR; a level at a bound sets the direction; otherwise nothing changes. -/
def Obligations.PeriodEndAppliesRequestOrFade : Prop :=
  ∀ (ra rb : Bool) (s : State), s.brt.step.toNat = 9 → ∃ t, exec (.tick ra rb) s = .next t ∧
    t.brt.fadeEn = s.brt.fadeEn ∧ t.brt.req = s.brt.req ∧ t.brt.reqValid = false ∧
    (s.brt.reqValid = true → t.brt.level = s.brt.req) ∧
    (s.brt.reqValid = false → s.brt.fadeEn = true → s.brt.fadeDir = .up →
      t.brt.level.toNat = min (s.brt.level.toNat + 1) 10) ∧
    (s.brt.reqValid = false → s.brt.fadeEn = true → s.brt.fadeDir = .down →
      t.brt.level.toNat = max (s.brt.level.toNat - 1) 5) ∧
    (s.brt.reqValid = true ∨ s.brt.fadeEn = true →
      t.brt.fadeDir =
        if t.brt.level.toNat = 10 then .down else if t.brt.level.toNat = 5 then .up else s.brt.fadeDir) ∧
    (s.brt.reqValid = false → s.brt.fadeEn = false →
      t.brt.level = s.brt.level ∧ t.brt.fadeDir = s.brt.fadeDir)

/-- R210, R211, R212: DB_SAMPLE of each button, on its own line and its own registers. -/
def Obligations.TickSamplesEachButton : Prop :=
  ∀ (ra rb : Bool) (s : State), ∃ t, exec (.tick ra rb) s = .next t ∧
    ∀ (x : Button) (raw p : Bool), rawOf x (.tick ra rb) = some raw → p = (raw == s.cfg.pressedLevel) →
      (p = (button x s).stable →
        button x t = { stable := (button x s).stable, cnt := 0#16, edge := .none }) ∧
      (p ≠ (button x s).stable → s.cfg.dbWindow ≤ (button x s).cnt.toNat + 1 →
        button x t = { stable := p, cnt := 0#16, edge := if p then .pressed else .released }) ∧
      (p ≠ (button x s).stable → (button x s).cnt.toNat + 1 < s.cfg.dbWindow →
        button x t = { stable := (button x s).stable, cnt := (button x s).cnt + 1#16, edge := .none })

/-- R230, R43: TICK completes in every state, counts modulo 2^32, and writes no other register: the mode machine's, FADE_EN
and LVL_REQ are unchanged, and outside a period end so are PWM_LEVEL, FADE_DIR and LVL_REQ_V. -/
def Obligations.TickCountsAndWritesNoOtherRegister : Prop :=
  ∀ (ra rb : Bool) (s : State), ∃ t, exec (.tick ra rb) s = .next t ∧
    t.tcnt.toNat = (s.tcnt.toNat + 1) % 2 ^ 32 ∧
    t = { s with btnA := t.btnA, btnB := t.btnB, brt := t.brt, tcnt := t.tcnt } ∧
    t.brt.fadeEn = s.brt.fadeEn ∧ t.brt.req = s.brt.req ∧
    (s.brt.step.toNat ≠ 9 →
      t.brt.level = s.brt.level ∧ t.brt.fadeDir = s.brt.fadeDir ∧ t.brt.reqValid = s.brt.reqValid)

/-- R231: the four parts of TICK may be done in any order: every order gives TICK's end state. -/
def Obligations.TickPartsMayComeInAnyOrder : Prop :=
  ∀ (ra rb : Bool) (s : State) (parts : List (State → State)),
    parts.Perm [State.pwmPart, State.samplePartA ra, State.samplePartB rb, State.countPart] →
      exec (.tick ra rb) s = .next (parts.foldl (fun u part => part u) s)

/-- R217: an edge not taken before the next TICK is lost and no state records that it happened: what TICK leaves does not
depend on the edges it overwrites. -/
def Obligations.TickForgetsUntakenEdges : Prop :=
  ∀ (ra rb : Bool) (eA eB : Edge) (s : State),
    exec (.tick ra rb) { s with btnA := { s.btnA with edge := eA }, btnB := { s.btnB with edge := eB } } =
      exec (.tick ra rb) s

/-- R181: the duty law. Over any run that begins at PWM_STEP = 0 and holds ten TICKs and no RESET, whatever else comes
between them, PWM_OUT is driven to 1 on exactly PWM_LEVEL of them, the level is constant until the tenth, and the period is
then over. -/
def Obligations.DutyLaw : Prop :=
  ∀ (l : List Performed) (s t : State),
    s.brt.step.toNat = 0 → s.brt.level.toNat ≤ 10 → NoReset l → countTicks l = 10 → performAll l s = .next t →
      onTicks l s = s.brt.level.toNat ∧ t.brt.step.toNat = 0 ∧
      ∀ (l₁ l₂ : List Performed) (u : State), l = l₁ ++ l₂ → countTicks l₁ < 10 → performAll l₁ s = .next u →
        u.brt.level = s.brt.level

/-- R183: the ping-pong law. From PWM_LEVEL = 10, DOWN, at the start of a period with the fade enabled and no request, the
level after n TICKs is that of n / 10 period ends, so each level, the bounds too, is held for exactly one period. -/
def Obligations.PingPongLaw : Prop :=
  ∀ (l : List Performed) (s t : State),
    s.brt.step.toNat = 0 → s.brt.level.toNat = 10 → s.brt.fadeDir = .down → s.brt.fadeEn = true →
    s.brt.reqValid = false → NoReset l → (∀ p ∈ l, p.instr ≠ .fade false) → (∀ p ∈ l, ∀ lvl, p.instr ≠ .bset lvl) →
    performAll l s = .next t →
      t.brt.level.toNat = pingPongLevel (countTicks l / 10) ∧ t.brt.fadeDir = pingPongDir (countTicks l / 10) ∧
      t.brt.step.toNat = countTicks l % 10

/-! ## The debouncer over runs -/

/-- R213: noise rejection. Fewer than DB_WINDOW consecutive samples that differ from the stable level produce no edge and
leave the stable level; one agreeing sample then returns the counter to 0 with no edge. -/
def Obligations.ShortRunsProduceNoEdge : Prop :=
  ∀ (x : Button) (l : List Performed) (s t : State),
    (button x s).cnt.toNat = 0 → NoReset l → Holds s.cfg x (!(button x s).stable) l →
    countTicks l < s.cfg.dbWindow → performAll l s = .next t →
      edgesOf x l s = List.replicate (countTicks l) .none ∧ (button x t).stable = (button x s).stable ∧
      ∀ ra rb raw, rawOf x (.tick ra rb) = some raw → (raw == s.cfg.pressedLevel) = (button x s).stable →
        ∃ u, exec (.tick ra rb) t = .next u ∧
          button x u = { stable := (button x s).stable, cnt := 0#16, edge := .none }

/-- R214, R216: exactly one edge. A new logical level held for n ≥ DB_WINDOW samples produces one edge, on the
DB_WINDOW-th sample, PRESSED for 1 and RELEASED for 0, and the stable level is the new one afterwards. -/
def Obligations.HeldLevelProducesExactlyOneEdge : Prop :=
  ∀ (x : Button) (v : Bool) (l : List Performed) (s t : State),
    (button x s).cnt.toNat = 0 → (button x s).stable = (!v) → NoReset l → Holds s.cfg x v l →
    s.cfg.dbWindow ≤ countTicks l → performAll l s = .next t →
      edgesOf x l s =
        List.replicate (s.cfg.dbWindow - 1) .none ++ (if v then .pressed else .released) ::
          List.replicate (countTicks l - s.cfg.dbWindow) .none ∧
      (button x t).stable = v

/-- R272: a button held pressed through reset produces its PRESSED edge on the DB_WINDOW-th TICK after reset, whatever
the parameters. -/
def Obligations.ButtonHeldThroughResetIsANewPress : Prop :=
  ∀ (c : Config) (x : Button) (l : List Performed) (t : State),
    NoReset l → Holds c x true l → countTicks l = c.dbWindow → performAll l (State.resetWith c) = .next t →
      edgesOf x l (State.resetWith c) = List.replicate (c.dbWindow - 1) .none ++ [.pressed] ∧
      (button x t).stable = true

/-- R215: the edges of one button alternate, over every run without RESET and every sequence of raw levels: each one goes
from the level before it to the other level, and the stable level is always the one the edges led to. -/
def Obligations.EdgesOfAButtonAlternate : Prop :=
  ∀ (x : Button) (l : List Performed) (s t : State), NoReset l → performAll l s = .next t →
    alternates (button x s).stable (edgesOf x l s) ∧
    (button x t).stable = levelAfter (button x s).stable (edgesOf x l s)

/-! ## ITER -/

/-- R240, R130: ITER while a dispatch is outstanding faults. -/
def Obligations.IterWhilePendingFaults : Prop :=
  ∀ s : State, s.fsm.pending = true → exec .iter s = .fault (.protoIterWhilePending 0x2000#16)

/-- R131, R132, and ITER's frame: with no dispatch outstanding ITER completes; both edges are cleared, TSAMPLE is the time
source's answer, LAST_TCNT is TCNT; the stable levels, the counters, the brightness registers, TCNT, DISPLAY and the
parameters are unchanged. -/
def Obligations.IterTakesTheSnapshot : Prop :=
  ∀ s : State, s.fsm.pending = false → ∃ t, exec .iter s = .next t ∧
    t.btnA = { s.btnA with edge := .none } ∧ t.btnB = { s.btnB with edge := .none } ∧
    t.fsm.tsample = s.input.time ∧ t.fsm.lastTcnt = s.tcnt ∧ t.fsm.display = s.fsm.display ∧
    t = { s with btnA := t.btnA, btnB := t.btnB, fsm := t.fsm, emitted := t.emitted }

/-- R133, R134, R135, R136: the chord fires when both stable levels are pressed and the latch is clear; it moves MODE to
the next mode of the cycle, saves BallGame in HIST when it enters ManualSet, and sets the latch; the latch clears only
when both stable levels are released; without a chord MODE and HIST stay. -/
def Obligations.ChordMovesTheModeOnce : Prop :=
  ∀ (s : State) (fire : Bool), s.fsm.pending = false →
    fire = (s.btnA.stable && s.btnB.stable && !s.fsm.latch) → ∃ t, exec .iter s = .next t ∧
      (fire = true →
        t.fsm.mode = (match s.fsm.mode with
          | .fullBinary => .subBinary | .subBinary => .ballGame | .ballGame => .manualSet
          | .manualSet => .serialSet | .serialSet => .paused | .paused => .fullBinary) ∧
        t.fsm.hist = (if s.fsm.mode = .ballGame then .ballGame else s.fsm.hist) ∧
        t.fsm.latch = true) ∧
      (fire = false →
        t.fsm.mode = s.fsm.mode ∧ t.fsm.hist = s.fsm.hist ∧
        t.fsm.latch = (s.fsm.latch && (s.btnA.stable || s.btnB.stable)))

/-- R138, R137, R110, R133: the dispatch. When the mode after the chord is not Paused, ITER emits one record, with the
delivered edges NONE if the latch was set or the chord fires, clears FRESH and sets PENDING; in Paused it emits none,
PENDING stays 0, and FRESH is 1 if the chord fired and as before otherwise. (The port is the model's list `emitted`, log 5.) -/
def Obligations.IterDispatchesUnlessPaused : Prop :=
  ∀ (s : State) (fire : Bool), s.fsm.pending = false →
    fire = (s.btnA.stable && s.btnB.stable && !s.fsm.latch) → ∃ t, exec .iter s = .next t ∧
      (t.fsm.mode ≠ .paused →
        t.fsm.fresh = false ∧ t.fsm.pending = true ∧
        t.emitted =
          { mode := t.fsm.mode
            fresh := fire || s.fsm.fresh
            edgeA := if s.fsm.latch || fire then .none else s.btnA.edge
            edgeB := if s.fsm.latch || fire then .none else s.btnB.edge
            level := s.brt.level
            elapsed := s.tcnt - s.fsm.lastTcnt
            time := s.input.time } :: s.emitted) ∧
      (t.fsm.mode = .paused →
        t.fsm.fresh = (fire || s.fsm.fresh) ∧ t.fsm.pending = false ∧ t.emitted = s.emitted)

/-- R132, R283: the elapsed field of a dispatch is the number of TICKs since the previous ITER's snapshot, modulo 2^32,
whatever operations (but ITER and RESET) and whatever agents come between. (The record is read off the model's list, log 5.) -/
def Obligations.ElapsedCountsTheTicksBetweenPasses : Prop :=
  ∀ (p q : Performed) (l : List Performed) (s s₀ s₁ s₂ : State),
    p.instr = .iter → q.instr = .iter → NoReset l → (∀ r ∈ l, r.instr ≠ .iter) →
    performOne p s = .next s₀ → performAll l s₀ = .next s₁ → performOne q s₁ = .next s₂ →
      s₂.fsm.mode ≠ .paused →
        ∃ d, s₂.emitted = d :: s₁.emitted ∧ d.elapsed.toNat = countTicks l % 2 ^ 32

/-- R137, R281, R88: while MODE stays Paused, no run without RESET writes DISPLAY or emits a dispatch (`emitted`: log 5). -/
def Obligations.PausedFreezesTheDisplay : Prop :=
  ∀ (l : List Performed) (s t : State),
    Invariants s → NoReset l → Along (fun u => u.fsm.mode = .paused) l s → performAll l s = .next t →
      t.fsm.display = s.fsm.display ∧ t.emitted = s.emitted

/-- R133, R277: one chord cycles the mode exactly once. With the latch set, over a run in which a button is stably pressed
at every moment and no delegate requests an exit, MODE and the latch stay, and every dispatch delivers NONE edges. -/
def Obligations.HeldChordDoesNotCycleAgain : Prop :=
  ∀ (l : List Performed) (s t : State),
    s.fsm.latch = true → NoReset l → (∀ p ∈ l, ∀ req disp, p.instr = .dlgret req disp → req = .none) →
    Along (fun u => u.btnA.stable = true ∨ u.btnB.stable = true) l s → performAll l s = .next t →
      t.fsm.mode = s.fsm.mode ∧ t.fsm.latch = true ∧
      ∃ new, t.emitted = new ++ s.emitted ∧ ∀ d ∈ new, d.edgeA = .none ∧ d.edgeB = .none

/-! ## DLGRET -/

/-- R240, R140: DLGRET with no dispatch outstanding faults, and the fault records the word and its data word. -/
def Obligations.DlgretWithoutDispatchFaults : Prop :=
  ∀ (req : ExitReq) (disp : DataWord) (s : State), s.fsm.pending = false →
    exec (.dlgret req disp) s =
      .fault (.protoRetWithoutDispatch
        (match req with | .none => 0x3000#16 | .prev => 0x3001#16 | .full => 0x3002#16 | .rsv => 0x3003#16) disp)

/-- R140, R141: with a dispatch outstanding DLGRET completes: DISPLAY is written whole, PENDING clears, PREV in an editing
mode enters HIST, FULL in BallGame enters FullBinary, each with FRESH = 1; NONE and RSV make no transition in any mode; HIST is
not written, and nothing else is. -/
def Obligations.DlgretPerformsTheExitRequest : Prop :=
  ∀ (disp : DataWord) (s : State), s.fsm.pending = true →
    (s.fsm.mode = .manualSet ∨ s.fsm.mode = .serialSet →
      exec (.dlgret .prev disp) s = .next { s with fsm :=
        { s.fsm with display := disp, pending := false, mode := s.fsm.hist, fresh := true } }) ∧
    (s.fsm.mode = .ballGame →
      exec (.dlgret .full disp) s = .next { s with fsm :=
        { s.fsm with display := disp, pending := false, mode := .fullBinary, fresh := true } }) ∧
    exec (.dlgret .none disp) s = .next { s with fsm := { s.fsm with display := disp, pending := false } } ∧
    exec (.dlgret .rsv disp) s = .next { s with fsm := { s.fsm with display := disp, pending := false } }

/-- R142, R141, R116: a request that is not valid in MODE is ignored: DISPLAY is written and the dispatch completes, and
MODE, HIST, FRESH and everything else keep their values. -/
def Obligations.DlgretIgnoresAnInvalidRequest : Prop :=
  ∀ (req : ExitReq) (disp : DataWord) (s : State), s.fsm.pending = true →
    ¬ (req = .prev ∧ (s.fsm.mode = .manualSet ∨ s.fsm.mode = .serialSet)) →
    ¬ (req = .full ∧ s.fsm.mode = .ballGame) →
      exec (.dlgret req disp) s = .next { s with fsm := { s.fsm with display := disp, pending := false } }

/-- R121, R274, R280: one main-loop pass completes. With no dispatch outstanding the pseudo-operation PASS, its ITER and
(exactly when the ITER dispatched) its DLGRET, runs to a state with no dispatch outstanding; DISPLAY is the reply's exactly
when there was a dispatch. -/
def Obligations.MainLoopPassCompletes : Prop :=
  ∀ (s : State) (req : ExitReq) (disp : DataWord) (time : TimeSample), s.fsm.pending = false →
    ∃ t, performAll ((AsmOp.expand s (.pass req disp)).map fun i => ⟨.main, i, time⟩) s = .next t ∧
      t.fsm.pending = false ∧
      ((t.emitted = s.emitted ∧ t.fsm.display = s.fsm.display ∧ t.fsm.mode = .paused) ∨
        (∃ d, t.emitted = d :: s.emitted ∧ d.time = time) ∧ t.fsm.display = disp)

/-! ## The mode machine as a whole -/

/-- R143, R149: the transition relation of MODE. In every completed operation in which MODE changes, it changes by the
chord to the next mode of the cycle, by PREV from an editing mode to HIST, by FULL from BallGame to FullBinary, or by
RESET. -/
def Obligations.ModeChangesOnlyByTheTransitionTable : Prop :=
  ∀ (i : Instr) (s t : State), exec i s = .next t → t.fsm.mode ≠ s.fsm.mode →
    (i = .iter ∧ s.btnA.stable = true ∧ s.btnB.stable = true ∧ s.fsm.latch = false ∧
      (s.fsm.mode, t.fsm.mode) ∈
        [(.fullBinary, .subBinary), (.subBinary, .ballGame), (.ballGame, .manualSet), (.manualSet, .serialSet),
          (.serialSet, .paused), (.paused, (.fullBinary : ClockMode))]) ∨
    (∃ disp, i = .dlgret .prev disp ∧ (s.fsm.mode = .manualSet ∨ s.fsm.mode = .serialSet) ∧
      t.fsm.mode = s.fsm.hist) ∨
    (∃ disp, i = .dlgret .full disp ∧ s.fsm.mode = .ballGame ∧ t.fsm.mode = .fullBinary) ∨
    i = .reset

/-- R148: HIST only ever holds FullBinary or BallGame: every step keeps it so. -/
def Obligations.HistoryIsNeverAnEditingMode : Prop :=
  ∀ s t : State, s.fsm.hist = .fullBinary ∨ s.fsm.hist = .ballGame → step s = .next t →
    t.fsm.hist = .fullBinary ∨ t.fsm.hist = .ballGame

/-- R143: every mode is reachable from reset by chords alone, whatever the parameters: by a run of TICKs, ITERs and
replies that request no exit, each performed by its own agent. -/
def Obligations.EveryModeIsReachableByChords : Prop :=
  ∀ (c : Config) (m : ClockMode), ∃ (l : List Performed) (t : State),
    (∀ p ∈ l, p.wf = true ∧
      ((∃ ra rb, p.instr = .tick ra rb) ∨ p.instr = .iter ∨ ∃ disp, p.instr = .dlgret .none disp)) ∧
    performAll l (State.resetWith c) = .next t ∧ t.fsm.mode = m

/-- R49, R138: every step keeps the fact that an outstanding dispatch is one to the active mode's delegate (an invariant
of the model's record of the delegate port, log 5). -/
def Obligations.PendingDispatchIsForTheActiveMode : Prop :=
  ∀ s t : State, PendingMatchesDispatch s → step s = .next t → PendingMatchesDispatch t

/-! ## FADE, BSET and the reads -/

/-- R184: FADE writes FADE_EN and nothing else. -/
def Obligations.FadeWritesTheEnable : Prop :=
  ∀ (en : Bool) (s : State), exec (.fade en) s = .next { s with brt := { s.brt with fadeEn := en } }

/-- R185: BSET with a level in 5..10 fills the mailbox, overwriting an earlier request, and writes nothing else; any other
level is ignored. -/
def Obligations.BsetFillsTheMailboxOrIsIgnored : Prop :=
  ∀ (lvl : BitVec 4) (s : State),
    (5 ≤ lvl.toNat ∧ lvl.toNat ≤ 10 →
      exec (.bset lvl) s = .next { s with brt := { s.brt with req := lvl, reqValid := true } }) ∧
    (lvl.toNat < 5 ∨ 10 < lvl.toNat → exec (.bset lvl) s = .next s)

/-- R278, R185: a level request changes the level at the next period end and not before. After a valid BSET, over a run
with no other BSET and no RESET: while the period is not over the level stands and the request is pending; once it is
over (and no second one has begun to end) the level is the requested one and the mailbox is empty. -/
def Obligations.LevelRequestWaitsForThePeriodEnd : Prop :=
  ∀ (p : Performed) (lvl : BitVec 4) (l : List Performed) (s s₀ t : State),
    s.brt.step.toNat ≤ 9 → p.instr = .bset lvl → 5 ≤ lvl.toNat → lvl.toNat ≤ 10 → performOne p s = .next s₀ →
    NoReset l → (∀ q ∈ l, ∀ k, q.instr ≠ .bset k) → performAll l s₀ = .next t →
      (countTicks l + s.brt.step.toNat < 10 → t.brt.level = s.brt.level ∧ t.brt.reqValid = true) ∧
      (countTicks l + s.brt.step.toNat = 10 → t.brt.level = lvl ∧ t.brt.reqValid = false)

/-- R109, R145, R146, R186: each read returns its register, zero-extended, to the performing agent, and changes nothing
else. The status of RDBRT is the level, 16 for UP and 32 for an enabled fade. (Results go to the model's list `returned`,
log 5.) -/
def Obligations.ReadsReturnTheirRegisters : Prop :=
  ∀ s : State,
    (∃ v : DataWord, exec .rdmode s = .next { s with returned := ⟨s.input.agent, v⟩ :: s.returned } ∧
      v.toNat = match s.fsm.mode with
        | .fullBinary => 0 | .subBinary => 1 | .ballGame => 2 | .manualSet => 3 | .serialSet => 4 | .paused => 5) ∧
    (∃ v : DataWord, exec .rdbrt s = .next { s with returned := ⟨s.input.agent, v⟩ :: s.returned } ∧
      v.toNat = s.brt.level.toNat + (if s.brt.fadeDir = .up then 16 else 0) + (if s.brt.fadeEn then 32 else 0)) ∧
    exec .rddisp s = .next { s with returned := ⟨s.input.agent, s.fsm.display⟩ :: s.returned }

/-- R187: no reader sees a level outside 5..10, in any state that satisfies the invariants. -/
def Obligations.ReadersSeeALegalLevel : Prop :=
  ∀ s : State, Invariants s → ∃ r t, exec .rdbrt s = .next t ∧ t.returned = r :: s.returned ∧
    5 ≤ r.value.toNat % 16 ∧ r.value.toNat % 16 ≤ 10

/-- R147: reads change no register: taking every read out of a run changes neither whether it completes nor the registers
it ends in, so no read affects any later operation. -/
def Obligations.ReadsAreInvisibleToTheRun : Prop :=
  ∀ (l : List Performed) (s t : State), performAll l s = .next t →
    ∃ u, performAll (l.filter fun p => !isRead p.instr) s = .next u ∧ SameRegisters t u ∧ u.emitted = t.emitted

/-- R188: the brightness registers after a run depend on the TICKs, FADEs, BSETs and RESETs of the run alone: neither the
mode machine, the buttons, the reads nor any other register affects them. -/
def Obligations.BrightnessIsIndependentOfTheModeMachine : Prop :=
  ∀ (l l' : List Performed) (s s' t t' : State),
    s.brt = s'.brt → (l.filterMap fun p => brightView p.instr) = l'.filterMap (fun p => brightView p.instr) →
    performAll l s = .next t → performAll l' s' = .next t' → t.brt = t'.brt

/-! ## Reset, ownership and the invariants -/

/-- R270, R55: the reset state, register by register, for every choice of the parameters, and its invariants; the machine's
own reset state is it at its own parameters. (TSAMPLE has no value there and the statement gives it none.) -/
def Obligations.ResetStateIsTheTable : Prop :=
  State.reset = State.resetWith State.reset.cfg ∧
  ∀ (c : Config) (x : Button), Invariants (State.resetWith c) ∧
    (State.resetWith c).cfg = c ∧
    (button x (State.resetWith c)).stable = false ∧ (button x (State.resetWith c)).cnt = 0#16 ∧
    (button x (State.resetWith c)).edge = .none ∧
    (State.resetWith c).brt =
      { step := 0#4, level := 10#4, fadeDir := .down, fadeEn := false, reqValid := false, req := 0#4, out := false } ∧
    (State.resetWith c).tcnt = 0#32 ∧
    (State.resetWith c).fsm.mode = .fullBinary ∧ (State.resetWith c).fsm.hist = .fullBinary ∧
    (State.resetWith c).fsm.fresh = true ∧ (State.resetWith c).fsm.latch = false ∧
    (State.resetWith c).fsm.pending = false ∧ (State.resetWith c).fsm.lastTcnt = 0#32 ∧
    (State.resetWith c).fsm.display = 0#32 ∧
    (State.resetWith c).faultMark = [] ∧ (State.resetWith c).refusalMark = false

/-- R232, R271: RESET completes in every state, gives every register its power-on value, and leaves the parameters, the
marks and the ports; no record is emitted. (For TSAMPLE, which the spec gives no value, it is the model's choice, log 3.) -/
def Obligations.ResetOperationGivesThePowerOnState : Prop :=
  ∀ s : State, ∃ t, exec .reset s = .next t ∧ SameRegisters t (State.resetWith s.cfg) ∧
    t = { s with btnA := t.btnA, btnB := t.btnB, brt := t.brt, tcnt := t.tcnt, fsm := t.fsm }

/-- R87, R88 and the writer column of 10_state.md: registers are written only by their writers. What is not TICK writes no
tick-owned register, does not clear LVL_REQ_V, and clears an edge only if it is ITER; TICK writes no main-loop register, only
clears LVL_REQ_V and leaves LVL_REQ. Only ITER and DLGRET write the mode machine; LATCH, LAST_TCNT and TSAMPLE are ITER's alone
and DISPLAY is DLGRET's. FADE_EN is written only by FADE, and the mailbox is filled only by BSET. -/
def Obligations.RegistersAreWrittenOnlyByTheirOwners : Prop :=
  ∀ (i : Instr) (s t : State), exec i s = .next t → i ≠ .reset →
    (isTick i = false →
      t.btnA.stable = s.btnA.stable ∧ t.btnA.cnt = s.btnA.cnt ∧ t.btnB.stable = s.btnB.stable ∧
      t.btnB.cnt = s.btnB.cnt ∧ t.brt.step = s.brt.step ∧ t.brt.level = s.brt.level ∧
      t.brt.fadeDir = s.brt.fadeDir ∧ t.brt.out = s.brt.out ∧ t.tcnt = s.tcnt ∧
      (s.brt.reqValid = true → t.brt.reqValid = true) ∧
      (i = .iter → t.btnA.edge = .none ∧ t.btnB.edge = .none) ∧
      (i ≠ .iter → t.btnA.edge = s.btnA.edge ∧ t.btnB.edge = s.btnB.edge)) ∧
    (isTick i = true → t.fsm = s.fsm ∧ t.brt.req = s.brt.req ∧ (t.brt.reqValid = true → s.brt.reqValid = true)) ∧
    (i ≠ .iter → (∀ req disp, i ≠ .dlgret req disp) → t.fsm = s.fsm) ∧
    (i ≠ .iter →
      t.fsm.latch = s.fsm.latch ∧ t.fsm.lastTcnt = s.fsm.lastTcnt ∧ t.fsm.tsample = s.fsm.tsample) ∧
    ((∀ req disp, i ≠ .dlgret req disp) → t.fsm.display = s.fsm.display) ∧
    ((∀ en, i ≠ .fade en) → t.brt.fadeEn = s.brt.fadeEn) ∧
    ((∀ lvl, i ≠ .bset lvl) → t.brt.req = s.brt.req ∧ (t.brt.reqValid = true → s.brt.reqValid = true))

/-- R55: every step keeps the invariants, from every state that satisfies them. -/
def Obligations.StepKeepsTheInvariants : Prop :=
  ∀ s t : State, Invariants s → step s = .next t → Invariants t

/-- R55: every state reachable from reset satisfies the invariants, for every choice of the parameters and every sequence of
operations, time samples, raw levels and replies. -/
def Obligations.ReachableStatesSatisfyTheInvariants : Prop :=
  ∀ (c : Config) (l : List Performed) (t : State), performAll l (State.resetWith c) = .next t → Invariants t

/-- R15, R55: infinite runs. An infinite run is its finite prefixes: after `n` steps the machine is in the run's state `n`,
which satisfies the invariants; and where every finite prefix completes there is an infinite run. -/
def Obligations.InfiniteRunsAreTheirFinitePrefixes : Prop :=
  ∀ (c : Config) (ops : Nat → Presented),
    (∀ states : Nat → State, InfiniteRun c ops states →
      ∀ n, firstSteps c ops n = .next (states n) ∧ Invariants (states n)) ∧
    ((∀ n, ∃ t, firstSteps c ops n = .next t) → ∃ states : Nat → State, InfiniteRun c ops states)

/-- R121, R138: PASS replies to a dispatch exactly. Where the ITER emits a record (read off the model's list `emitted`,
log 5) it is ITER and then DLGRET; where it emits none, in Paused or because it faults while a dispatch is outstanding, it is
ITER alone. -/
def Obligations.PassRepliesExactlyToADispatch : Prop :=
  ∀ (s : State) (req : ExitReq) (disp : DataWord),
    ((∃ d t, exec .iter s = .next t ∧ t.emitted = d :: s.emitted) →
      AsmOp.expand s (.pass req disp) = [.iter, .dlgret req disp]) ∧
    ((¬ ∃ d t, exec .iter s = .next t ∧ t.emitted = d :: s.emitted) →
      AsmOp.expand s (.pass req disp) = [.iter])
end

