-- ==== Sys2Proof/Laws/State.lean ====
section
/-! SUPPORT. What each named update of the state does to each field, one lemma per field per update. -/

namespace Sys2Proof.Machine

/-! ## State.emit -/

@[simp] theorem State.emit_cfg (s : State) (d : Dreq) : (s.emit d).cfg = s.cfg := rfl
@[simp] theorem State.emit_btnA (s : State) (d : Dreq) : (s.emit d).btnA = s.btnA := rfl
@[simp] theorem State.emit_btnB (s : State) (d : Dreq) : (s.emit d).btnB = s.btnB := rfl
@[simp] theorem State.emit_brt (s : State) (d : Dreq) : (s.emit d).brt = s.brt := rfl
@[simp] theorem State.emit_tcnt (s : State) (d : Dreq) : (s.emit d).tcnt = s.tcnt := rfl
@[simp] theorem State.emit_fsm (s : State) (d : Dreq) : (s.emit d).fsm = s.fsm := rfl
@[simp] theorem State.emit_faultMark (s : State) (d : Dreq) : (s.emit d).faultMark = s.faultMark := rfl
@[simp] theorem State.emit_refusalMark (s : State) (d : Dreq) : (s.emit d).refusalMark = s.refusalMark := rfl
@[simp] theorem State.emit_input (s : State) (d : Dreq) : (s.emit d).input = s.input := rfl
@[simp] theorem State.emit_stream (s : State) (d : Dreq) : (s.emit d).stream = s.stream := rfl
@[simp] theorem State.emit_emitted (s : State) (d : Dreq) : (s.emit d).emitted = d :: s.emitted := rfl
@[simp] theorem State.emit_returned (s : State) (d : Dreq) : (s.emit d).returned = s.returned := rfl

/-! ## State.giveResult -/

@[simp] theorem State.giveResult_cfg (s : State) (v : DataWord) : (s.giveResult v).cfg = s.cfg := rfl
@[simp] theorem State.giveResult_btnA (s : State) (v : DataWord) : (s.giveResult v).btnA = s.btnA := rfl
@[simp] theorem State.giveResult_btnB (s : State) (v : DataWord) : (s.giveResult v).btnB = s.btnB := rfl
@[simp] theorem State.giveResult_brt (s : State) (v : DataWord) : (s.giveResult v).brt = s.brt := rfl
@[simp] theorem State.giveResult_tcnt (s : State) (v : DataWord) : (s.giveResult v).tcnt = s.tcnt := rfl
@[simp] theorem State.giveResult_fsm (s : State) (v : DataWord) : (s.giveResult v).fsm = s.fsm := rfl
@[simp] theorem State.giveResult_faultMark (s : State) (v : DataWord) : (s.giveResult v).faultMark = s.faultMark := rfl
@[simp] theorem State.giveResult_refusalMark (s : State) (v : DataWord) : (s.giveResult v).refusalMark = s.refusalMark := rfl
@[simp] theorem State.giveResult_input (s : State) (v : DataWord) : (s.giveResult v).input = s.input := rfl
@[simp] theorem State.giveResult_stream (s : State) (v : DataWord) : (s.giveResult v).stream = s.stream := rfl
@[simp] theorem State.giveResult_emitted (s : State) (v : DataWord) : (s.giveResult v).emitted = s.emitted := rfl
@[simp] theorem State.giveResult_returned (s : State) (v : DataWord) : (s.giveResult v).returned = { agent := s.input.agent, value := v } :: s.returned := rfl

/-! ## State.takeSnapshot -/

@[simp] theorem State.takeSnapshot_cfg (s : State) : (s.takeSnapshot).cfg = s.cfg := rfl
@[simp] theorem State.takeSnapshot_btnA (s : State) : (s.takeSnapshot).btnA = s.btnA.consume := rfl
@[simp] theorem State.takeSnapshot_btnB (s : State) : (s.takeSnapshot).btnB = s.btnB.consume := rfl
@[simp] theorem State.takeSnapshot_brt (s : State) : (s.takeSnapshot).brt = s.brt := rfl
@[simp] theorem State.takeSnapshot_tcnt (s : State) : (s.takeSnapshot).tcnt = s.tcnt := rfl
@[simp] theorem State.takeSnapshot_fsm (s : State) : (s.takeSnapshot).fsm = { s.fsm with tsample := s.input.time } := rfl
@[simp] theorem State.takeSnapshot_faultMark (s : State) : (s.takeSnapshot).faultMark = s.faultMark := rfl
@[simp] theorem State.takeSnapshot_refusalMark (s : State) : (s.takeSnapshot).refusalMark = s.refusalMark := rfl
@[simp] theorem State.takeSnapshot_input (s : State) : (s.takeSnapshot).input = s.input := rfl
@[simp] theorem State.takeSnapshot_stream (s : State) : (s.takeSnapshot).stream = s.stream := rfl
@[simp] theorem State.takeSnapshot_emitted (s : State) : (s.takeSnapshot).emitted = s.emitted := rfl
@[simp] theorem State.takeSnapshot_returned (s : State) : (s.takeSnapshot).returned = s.returned := rfl

/-! ## State.recordFault -/

@[simp] theorem State.recordFault_cfg (s : State) (r : Fault) : (s.recordFault r).cfg = s.cfg := rfl
@[simp] theorem State.recordFault_btnA (s : State) (r : Fault) : (s.recordFault r).btnA = s.btnA := rfl
@[simp] theorem State.recordFault_btnB (s : State) (r : Fault) : (s.recordFault r).btnB = s.btnB := rfl
@[simp] theorem State.recordFault_brt (s : State) (r : Fault) : (s.recordFault r).brt = s.brt := rfl
@[simp] theorem State.recordFault_tcnt (s : State) (r : Fault) : (s.recordFault r).tcnt = s.tcnt := rfl
@[simp] theorem State.recordFault_fsm (s : State) (r : Fault) : (s.recordFault r).fsm = s.fsm := rfl
@[simp] theorem State.recordFault_faultMark (s : State) (r : Fault) : (s.recordFault r).faultMark = if r ∈ s.faultMark then s.faultMark else r :: s.faultMark := rfl
@[simp] theorem State.recordFault_refusalMark (s : State) (r : Fault) : (s.recordFault r).refusalMark = s.refusalMark := rfl
@[simp] theorem State.recordFault_input (s : State) (r : Fault) : (s.recordFault r).input = s.input := rfl
@[simp] theorem State.recordFault_stream (s : State) (r : Fault) : (s.recordFault r).stream = s.stream := rfl
@[simp] theorem State.recordFault_emitted (s : State) (r : Fault) : (s.recordFault r).emitted = s.emitted := rfl
@[simp] theorem State.recordFault_returned (s : State) (r : Fault) : (s.recordFault r).returned = s.returned := rfl

/-! ## State.recordRefusal -/

@[simp] theorem State.recordRefusal_cfg (s : State) : (s.recordRefusal).cfg = s.cfg := rfl
@[simp] theorem State.recordRefusal_btnA (s : State) : (s.recordRefusal).btnA = s.btnA := rfl
@[simp] theorem State.recordRefusal_btnB (s : State) : (s.recordRefusal).btnB = s.btnB := rfl
@[simp] theorem State.recordRefusal_brt (s : State) : (s.recordRefusal).brt = s.brt := rfl
@[simp] theorem State.recordRefusal_tcnt (s : State) : (s.recordRefusal).tcnt = s.tcnt := rfl
@[simp] theorem State.recordRefusal_fsm (s : State) : (s.recordRefusal).fsm = s.fsm := rfl
@[simp] theorem State.recordRefusal_faultMark (s : State) : (s.recordRefusal).faultMark = s.faultMark := rfl
@[simp] theorem State.recordRefusal_refusalMark (s : State) : (s.recordRefusal).refusalMark = true := rfl
@[simp] theorem State.recordRefusal_input (s : State) : (s.recordRefusal).input = s.input := rfl
@[simp] theorem State.recordRefusal_stream (s : State) : (s.recordRefusal).stream = s.stream := rfl
@[simp] theorem State.recordRefusal_emitted (s : State) : (s.recordRefusal).emitted = s.emitted := rfl
@[simp] theorem State.recordRefusal_returned (s : State) : (s.recordRefusal).returned = s.returned := rfl

/-! ## State.pwmPart -/

@[simp] theorem State.pwmPart_cfg (s : State) : (s.pwmPart).cfg = s.cfg := rfl
@[simp] theorem State.pwmPart_btnA (s : State) : (s.pwmPart).btnA = s.btnA := rfl
@[simp] theorem State.pwmPart_btnB (s : State) : (s.pwmPart).btnB = s.btnB := rfl
@[simp] theorem State.pwmPart_brt (s : State) : (s.pwmPart).brt = s.brt.pwmTick := rfl
@[simp] theorem State.pwmPart_tcnt (s : State) : (s.pwmPart).tcnt = s.tcnt := rfl
@[simp] theorem State.pwmPart_fsm (s : State) : (s.pwmPart).fsm = s.fsm := rfl
@[simp] theorem State.pwmPart_faultMark (s : State) : (s.pwmPart).faultMark = s.faultMark := rfl
@[simp] theorem State.pwmPart_refusalMark (s : State) : (s.pwmPart).refusalMark = s.refusalMark := rfl
@[simp] theorem State.pwmPart_input (s : State) : (s.pwmPart).input = s.input := rfl
@[simp] theorem State.pwmPart_stream (s : State) : (s.pwmPart).stream = s.stream := rfl
@[simp] theorem State.pwmPart_emitted (s : State) : (s.pwmPart).emitted = s.emitted := rfl
@[simp] theorem State.pwmPart_returned (s : State) : (s.pwmPart).returned = s.returned := rfl

/-! ## State.samplePartA -/

@[simp] theorem State.samplePartA_cfg (s : State) (ra : Bool) : (s.samplePartA ra).cfg = s.cfg := rfl
@[simp] theorem State.samplePartA_btnA (s : State) (ra : Bool) : (s.samplePartA ra).btnA = s.btnA.sample s.cfg ra := rfl
@[simp] theorem State.samplePartA_btnB (s : State) (ra : Bool) : (s.samplePartA ra).btnB = s.btnB := rfl
@[simp] theorem State.samplePartA_brt (s : State) (ra : Bool) : (s.samplePartA ra).brt = s.brt := rfl
@[simp] theorem State.samplePartA_tcnt (s : State) (ra : Bool) : (s.samplePartA ra).tcnt = s.tcnt := rfl
@[simp] theorem State.samplePartA_fsm (s : State) (ra : Bool) : (s.samplePartA ra).fsm = s.fsm := rfl
@[simp] theorem State.samplePartA_faultMark (s : State) (ra : Bool) : (s.samplePartA ra).faultMark = s.faultMark := rfl
@[simp] theorem State.samplePartA_refusalMark (s : State) (ra : Bool) : (s.samplePartA ra).refusalMark = s.refusalMark := rfl
@[simp] theorem State.samplePartA_input (s : State) (ra : Bool) : (s.samplePartA ra).input = s.input := rfl
@[simp] theorem State.samplePartA_stream (s : State) (ra : Bool) : (s.samplePartA ra).stream = s.stream := rfl
@[simp] theorem State.samplePartA_emitted (s : State) (ra : Bool) : (s.samplePartA ra).emitted = s.emitted := rfl
@[simp] theorem State.samplePartA_returned (s : State) (ra : Bool) : (s.samplePartA ra).returned = s.returned := rfl

/-! ## State.samplePartB -/

@[simp] theorem State.samplePartB_cfg (s : State) (rb : Bool) : (s.samplePartB rb).cfg = s.cfg := rfl
@[simp] theorem State.samplePartB_btnA (s : State) (rb : Bool) : (s.samplePartB rb).btnA = s.btnA := rfl
@[simp] theorem State.samplePartB_btnB (s : State) (rb : Bool) : (s.samplePartB rb).btnB = s.btnB.sample s.cfg rb := rfl
@[simp] theorem State.samplePartB_brt (s : State) (rb : Bool) : (s.samplePartB rb).brt = s.brt := rfl
@[simp] theorem State.samplePartB_tcnt (s : State) (rb : Bool) : (s.samplePartB rb).tcnt = s.tcnt := rfl
@[simp] theorem State.samplePartB_fsm (s : State) (rb : Bool) : (s.samplePartB rb).fsm = s.fsm := rfl
@[simp] theorem State.samplePartB_faultMark (s : State) (rb : Bool) : (s.samplePartB rb).faultMark = s.faultMark := rfl
@[simp] theorem State.samplePartB_refusalMark (s : State) (rb : Bool) : (s.samplePartB rb).refusalMark = s.refusalMark := rfl
@[simp] theorem State.samplePartB_input (s : State) (rb : Bool) : (s.samplePartB rb).input = s.input := rfl
@[simp] theorem State.samplePartB_stream (s : State) (rb : Bool) : (s.samplePartB rb).stream = s.stream := rfl
@[simp] theorem State.samplePartB_emitted (s : State) (rb : Bool) : (s.samplePartB rb).emitted = s.emitted := rfl
@[simp] theorem State.samplePartB_returned (s : State) (rb : Bool) : (s.samplePartB rb).returned = s.returned := rfl

/-! ## State.countPart -/

@[simp] theorem State.countPart_cfg (s : State) : (s.countPart).cfg = s.cfg := rfl
@[simp] theorem State.countPart_btnA (s : State) : (s.countPart).btnA = s.btnA := rfl
@[simp] theorem State.countPart_btnB (s : State) : (s.countPart).btnB = s.btnB := rfl
@[simp] theorem State.countPart_brt (s : State) : (s.countPart).brt = s.brt := rfl
@[simp] theorem State.countPart_tcnt (s : State) : (s.countPart).tcnt = s.tcnt + 1#32 := rfl
@[simp] theorem State.countPart_fsm (s : State) : (s.countPart).fsm = s.fsm := rfl
@[simp] theorem State.countPart_faultMark (s : State) : (s.countPart).faultMark = s.faultMark := rfl
@[simp] theorem State.countPart_refusalMark (s : State) : (s.countPart).refusalMark = s.refusalMark := rfl
@[simp] theorem State.countPart_input (s : State) : (s.countPart).input = s.input := rfl
@[simp] theorem State.countPart_stream (s : State) : (s.countPart).stream = s.stream := rfl
@[simp] theorem State.countPart_emitted (s : State) : (s.countPart).emitted = s.emitted := rfl
@[simp] theorem State.countPart_returned (s : State) : (s.countPart).returned = s.returned := rfl

/-! ## State.resetRegisters -/

@[simp] theorem State.resetRegisters_cfg (s : State) : (s.resetRegisters).cfg = s.cfg := rfl
@[simp] theorem State.resetRegisters_btnA (s : State) : (s.resetRegisters).btnA = ButtonRegs.reset := rfl
@[simp] theorem State.resetRegisters_btnB (s : State) : (s.resetRegisters).btnB = ButtonRegs.reset := rfl
@[simp] theorem State.resetRegisters_brt (s : State) : (s.resetRegisters).brt = BrightRegs.reset := rfl
@[simp] theorem State.resetRegisters_tcnt (s : State) : (s.resetRegisters).tcnt = 0#32 := rfl
@[simp] theorem State.resetRegisters_fsm (s : State) : (s.resetRegisters).fsm = ModeRegs.reset := rfl
@[simp] theorem State.resetRegisters_faultMark (s : State) : (s.resetRegisters).faultMark = s.faultMark := rfl
@[simp] theorem State.resetRegisters_refusalMark (s : State) : (s.resetRegisters).refusalMark = s.refusalMark := rfl
@[simp] theorem State.resetRegisters_input (s : State) : (s.resetRegisters).input = s.input := rfl
@[simp] theorem State.resetRegisters_stream (s : State) : (s.resetRegisters).stream = s.stream := rfl
@[simp] theorem State.resetRegisters_emitted (s : State) : (s.resetRegisters).emitted = s.emitted := rfl
@[simp] theorem State.resetRegisters_returned (s : State) : (s.resetRegisters).returned = s.returned := rfl

/-! ## State.take -/

@[simp] theorem State.take_cfg (s : State) (p : Presented) (rest : List Presented) : (s.take p rest).cfg = s.cfg := rfl
@[simp] theorem State.take_btnA (s : State) (p : Presented) (rest : List Presented) : (s.take p rest).btnA = s.btnA := rfl
@[simp] theorem State.take_btnB (s : State) (p : Presented) (rest : List Presented) : (s.take p rest).btnB = s.btnB := rfl
@[simp] theorem State.take_brt (s : State) (p : Presented) (rest : List Presented) : (s.take p rest).brt = s.brt := rfl
@[simp] theorem State.take_tcnt (s : State) (p : Presented) (rest : List Presented) : (s.take p rest).tcnt = s.tcnt := rfl
@[simp] theorem State.take_fsm (s : State) (p : Presented) (rest : List Presented) : (s.take p rest).fsm = s.fsm := rfl
@[simp] theorem State.take_faultMark (s : State) (p : Presented) (rest : List Presented) : (s.take p rest).faultMark = s.faultMark := rfl
@[simp] theorem State.take_refusalMark (s : State) (p : Presented) (rest : List Presented) : (s.take p rest).refusalMark = s.refusalMark := rfl
@[simp] theorem State.take_input (s : State) (p : Presented) (rest : List Presented) : (s.take p rest).input = { agent := p.agent, time := p.time } := rfl
@[simp] theorem State.take_stream (s : State) (p : Presented) (rest : List Presented) : (s.take p rest).stream = rest := rfl
@[simp] theorem State.take_emitted (s : State) (p : Presented) (rest : List Presented) : (s.take p rest).emitted = s.emitted := rfl
@[simp] theorem State.take_returned (s : State) (p : Presented) (rest : List Presented) : (s.take p rest).returned = s.returned := rfl

/-! ## ModeRegs.enter and ButtonRegs.consume -/

@[simp] theorem ModeRegs.enter_mode (r : ModeRegs) (m : ClockMode) : (r.enter m).mode = m := rfl
@[simp] theorem ModeRegs.enter_hist (r : ModeRegs) (m : ClockMode) : (r.enter m).hist = if m.isEditing && !r.mode.isEditing then r.mode else r.hist := rfl
@[simp] theorem ModeRegs.enter_fresh (r : ModeRegs) (m : ClockMode) : (r.enter m).fresh = true := rfl
@[simp] theorem ModeRegs.enter_latch (r : ModeRegs) (m : ClockMode) : (r.enter m).latch = r.latch := rfl
@[simp] theorem ModeRegs.enter_pending (r : ModeRegs) (m : ClockMode) : (r.enter m).pending = r.pending := rfl
@[simp] theorem ModeRegs.enter_lastTcnt (r : ModeRegs) (m : ClockMode) : (r.enter m).lastTcnt = r.lastTcnt := rfl
@[simp] theorem ModeRegs.enter_tsample (r : ModeRegs) (m : ClockMode) : (r.enter m).tsample = r.tsample := rfl
@[simp] theorem ModeRegs.enter_display (r : ModeRegs) (m : ClockMode) : (r.enter m).display = r.display := rfl

@[simp] theorem ButtonRegs.consume_stable (b : ButtonRegs) : b.consume.stable = b.stable := rfl
@[simp] theorem ButtonRegs.consume_cnt (b : ButtonRegs) : b.consume.cnt = b.cnt := rfl
@[simp] theorem ButtonRegs.consume_edge (b : ButtonRegs) : b.consume.edge = .none := rfl

/-! ## The reset state -/

@[simp] theorem State.resetWith_cfg (c : Config) : (State.resetWith c).cfg = c := rfl
@[simp] theorem State.resetWith_btnA (c : Config) : (State.resetWith c).btnA = ButtonRegs.reset := rfl
@[simp] theorem State.resetWith_btnB (c : Config) : (State.resetWith c).btnB = ButtonRegs.reset := rfl
@[simp] theorem State.resetWith_brt (c : Config) : (State.resetWith c).brt = BrightRegs.reset := rfl
@[simp] theorem State.resetWith_tcnt (c : Config) : (State.resetWith c).tcnt = 0#32 := rfl
@[simp] theorem State.resetWith_fsm (c : Config) : (State.resetWith c).fsm = ModeRegs.reset := rfl
@[simp] theorem State.resetWith_faultMark (c : Config) : (State.resetWith c).faultMark = [] := rfl
@[simp] theorem State.resetWith_refusalMark (c : Config) : (State.resetWith c).refusalMark = false := rfl
@[simp] theorem State.resetWith_input (c : Config) : (State.resetWith c).input = { agent := .env, time := TimeSample.atReset } := rfl
@[simp] theorem State.resetWith_stream (c : Config) : (State.resetWith c).stream = [] := rfl
@[simp] theorem State.resetWith_emitted (c : Config) : (State.resetWith c).emitted = [] := rfl
@[simp] theorem State.resetWith_returned (c : Config) : (State.resetWith c).returned = [] := rfl

end Sys2Proof.Machine
end

