-- ==== Sys2Proof/Laws/Exec.lean ====
section
/-! SUPPORT. What each operation, each shared operation and a step can do, said once. Later proofs cite these and do not
unfold the meanings. -/

namespace Sys2Proof.Machine

/-! ## Meanings, as equations -/

/-- TICK always completes, in this state. -/
theorem exec_tick (ra rb : Bool) (s : State) :
    exec (.tick ra rb) s = .next
      { s with brt := s.brt.pwmTick, btnA := s.btnA.sample s.cfg ra, btnB := s.btnB.sample s.cfg rb,
               tcnt := s.tcnt + 1#32 } := rfl

theorem exec_iter_of_not_pending {s : State} (h : s.fsm.pending = false) : exec .iter s = .next s.iterPass := by
  simp [exec, execIter, h]

theorem exec_iter_of_pending {s : State} (h : s.fsm.pending = true) :
    exec .iter s = .fault (.protoIterWhilePending (encode .iter)) := by
  simp [exec, execIter, h]

theorem exec_dlgret_of_pending {s : State} (req : ExitReq) (disp : DataWord) (h : s.fsm.pending = true) :
    exec (.dlgret req disp) s = .next { s with fsm := s.fsm.reply req disp } := by
  simp [exec, execDlgret, h]

theorem exec_dlgret_of_not_pending {s : State} (req : ExitReq) (disp : DataWord) (h : s.fsm.pending = false) :
    exec (.dlgret req disp) s = .fault (.protoRetWithoutDispatch (encode (.dlgret req disp)) disp) := by
  simp [exec, execDlgret, h]

theorem exec_fade (en : Bool) (s : State) :
    exec (.fade en) s = .next { s with brt := { s.brt with fadeEn := en } } := rfl

theorem exec_bset (lvl : BitVec 4) (s : State) :
    exec (.bset lvl) s =
      .next (if levelInRange lvl then { s with brt := { s.brt with req := lvl, reqValid := true } } else s) := rfl

theorem exec_rdmode (s : State) : exec .rdmode s = .next (s.giveResult (modeResult s.fsm)) := rfl

theorem exec_rdbrt (s : State) : exec .rdbrt s = .next (s.giveResult (brightResult s.brt)) := rfl

theorem exec_rddisp (s : State) : exec .rddisp s = .next (s.giveResult (displayResult s.fsm)) := rfl

theorem exec_reset (s : State) : exec .reset s = .next s.resetRegisters := rfl

/-- No decoded operation is refused (spec 60_exceptions.md R241, R242). -/
theorem exec_ne_refused (i : Instr) (s : State) (r : Refusal) : exec i s ≠ .refused r := by
  cases i with
  | iter => cases h : s.fsm.pending <;> simp [exec, execIter, h]
  | dlgret req disp => cases h : s.fsm.pending <;> simp [exec, execDlgret, h]
  | tick => simp [exec_tick]
  | fade => simp [exec_fade]
  | bset => simp [exec_bset]
  | rdmode => simp [exec_rdmode]
  | rdbrt => simp [exec_rdbrt]
  | rddisp => simp [exec_rddisp]
  | reset => simp [exec_reset]

/-! ## The pass of an ITER, field by field -/

/-- The mode registers before the dispatch of the pass at `s`. -/
def State.modeAfterChord (s : State) : ModeRegs := s.takeSnapshot.fsm.afterChord s.snapshot

/-- Does the chord fire in the pass at `s`? -/
def State.fires (s : State) : Bool := chordFires s.btnA.stable s.btnB.stable s.fsm.latch

theorem State.modeAfterChord_mode (s : State) :
    s.modeAfterChord.mode = if s.fires then s.fsm.mode.next else s.fsm.mode := by
  cases hf : s.fires <;>
    simp_all [modeAfterChord, ModeRegs.afterChord, chord, State.snapshot, State.fires, ModeRegs.enter]

theorem State.modeAfterChord_hist (s : State) :
    s.modeAfterChord.hist = if s.fires && s.fsm.mode == .ballGame then .ballGame else s.fsm.hist := by
  cases hm : s.fsm.mode <;> cases hf : s.fires <;>
    simp_all [modeAfterChord, ModeRegs.afterChord, chord, State.snapshot, State.fires, ModeRegs.enter, ClockMode.next,
      ClockMode.isEditing]

theorem State.modeAfterChord_fresh (s : State) : s.modeAfterChord.fresh = (s.fires || s.fsm.fresh) := by
  cases hf : s.fires <;>
    simp_all [modeAfterChord, ModeRegs.afterChord, chord, State.snapshot, State.fires, ModeRegs.enter]

theorem State.modeAfterChord_latch (s : State) :
    s.modeAfterChord.latch = (s.fires || s.fsm.latch && (s.btnA.stable || s.btnB.stable)) := by
  cases hl : s.fsm.latch <;> cases hA : s.btnA.stable <;> cases hB : s.btnB.stable <;>
    simp [modeAfterChord, ModeRegs.afterChord, chord, State.snapshot, State.fires, chordFires, hl, hA, hB]

theorem State.modeAfterChord_pending (s : State) : s.modeAfterChord.pending = s.fsm.pending := by
  simp only [modeAfterChord, ModeRegs.afterChord]
  split <;> simp

theorem State.modeAfterChord_lastTcnt (s : State) : s.modeAfterChord.lastTcnt = s.tcnt := by
  simp only [modeAfterChord, ModeRegs.afterChord]
  split <;> simp [State.snapshot]

theorem State.modeAfterChord_tsample (s : State) : s.modeAfterChord.tsample = s.input.time := by
  simp only [modeAfterChord, ModeRegs.afterChord]
  split <;> simp

theorem State.modeAfterChord_display (s : State) : s.modeAfterChord.display = s.fsm.display := by
  simp only [modeAfterChord, ModeRegs.afterChord]
  split <;> simp

/-- The pass that ends in Paused: no dispatch (R137). -/
theorem State.iterPass_of_paused {s : State} (h : s.modeAfterChord.mode = .paused) :
    s.iterPass = { s with btnA := s.btnA.consume, btnB := s.btnB.consume, fsm := s.modeAfterChord } := by
  unfold State.iterPass
  exact if_pos h

/-- The pass that dispatches (R138). -/
theorem State.iterPass_of_not_paused {s : State} (h : s.modeAfterChord.mode ≠ .paused) :
    s.iterPass =
      { s with
        btnA := s.btnA.consume
        btnB := s.btnB.consume
        fsm := { s.modeAfterChord with fresh := false, pending := true }
        emitted := dispatchRecord s.takeSnapshot.fsm s.modeAfterChord s.snapshot :: s.emitted } := by
  unfold State.iterPass
  exact if_neg h

/-- The record a dispatching pass emits, field by field (R110, R133, R138). -/
theorem State.dispatchRecord_eq (s : State) :
    dispatchRecord s.takeSnapshot.fsm s.modeAfterChord s.snapshot =
      { mode := s.modeAfterChord.mode
        fresh := s.modeAfterChord.fresh
        edgeA := if s.fsm.latch || s.fires then .none else s.btnA.edge
        edgeB := if s.fsm.latch || s.fires then .none else s.btnB.edge
        level := s.brt.level
        elapsed := s.tcnt - s.fsm.lastTcnt
        time := s.input.time } := rfl

@[simp] theorem State.iterPass_cfg (s : State) : s.iterPass.cfg = s.cfg := by
  unfold State.iterPass; dsimp only; split <;> rfl

@[simp] theorem State.iterPass_btnA (s : State) : s.iterPass.btnA = s.btnA.consume := by
  unfold State.iterPass; dsimp only; split <;> rfl

@[simp] theorem State.iterPass_btnB (s : State) : s.iterPass.btnB = s.btnB.consume := by
  unfold State.iterPass; dsimp only; split <;> rfl

@[simp] theorem State.iterPass_brt (s : State) : s.iterPass.brt = s.brt := by
  unfold State.iterPass; dsimp only; split <;> rfl

@[simp] theorem State.iterPass_tcnt (s : State) : s.iterPass.tcnt = s.tcnt := by
  unfold State.iterPass; dsimp only; split <;> rfl

@[simp] theorem State.iterPass_faultMark (s : State) : s.iterPass.faultMark = s.faultMark := by
  unfold State.iterPass; dsimp only; split <;> rfl

@[simp] theorem State.iterPass_refusalMark (s : State) : s.iterPass.refusalMark = s.refusalMark := by
  unfold State.iterPass; dsimp only; split <;> rfl

@[simp] theorem State.iterPass_input (s : State) : s.iterPass.input = s.input := by
  unfold State.iterPass; dsimp only; split <;> rfl

@[simp] theorem State.iterPass_stream (s : State) : s.iterPass.stream = s.stream := by
  unfold State.iterPass; dsimp only; split <;> rfl

@[simp] theorem State.iterPass_returned (s : State) : s.iterPass.returned = s.returned := by
  unfold State.iterPass; dsimp only; split <;> rfl

@[simp] theorem State.iterPass_mode (s : State) : s.iterPass.fsm.mode = s.modeAfterChord.mode := by
  by_cases h : s.modeAfterChord.mode = .paused
  · rw [State.iterPass_of_paused h]
  · rw [State.iterPass_of_not_paused h]

@[simp] theorem State.iterPass_hist (s : State) : s.iterPass.fsm.hist = s.modeAfterChord.hist := by
  by_cases h : s.modeAfterChord.mode = .paused
  · rw [State.iterPass_of_paused h]
  · rw [State.iterPass_of_not_paused h]

@[simp] theorem State.iterPass_latch (s : State) : s.iterPass.fsm.latch = s.modeAfterChord.latch := by
  by_cases h : s.modeAfterChord.mode = .paused
  · rw [State.iterPass_of_paused h]
  · rw [State.iterPass_of_not_paused h]

@[simp] theorem State.iterPass_lastTcnt (s : State) : s.iterPass.fsm.lastTcnt = s.tcnt := by
  by_cases h : s.modeAfterChord.mode = .paused
  · rw [State.iterPass_of_paused h]; exact s.modeAfterChord_lastTcnt
  · rw [State.iterPass_of_not_paused h]; exact s.modeAfterChord_lastTcnt

@[simp] theorem State.iterPass_tsample (s : State) : s.iterPass.fsm.tsample = s.input.time := by
  by_cases h : s.modeAfterChord.mode = .paused
  · rw [State.iterPass_of_paused h]; exact s.modeAfterChord_tsample
  · rw [State.iterPass_of_not_paused h]; exact s.modeAfterChord_tsample

@[simp] theorem State.iterPass_display (s : State) : s.iterPass.fsm.display = s.fsm.display := by
  by_cases h : s.modeAfterChord.mode = .paused
  · rw [State.iterPass_of_paused h]; exact s.modeAfterChord_display
  · rw [State.iterPass_of_not_paused h]; exact s.modeAfterChord_display

/-! ## The reply of a delegate, field by field -/

/-- Everything DLGRET does to the mode registers but the transition itself. -/
theorem ModeRegs.reply_frame (r : ModeRegs) (req : ExitReq) (disp : DataWord) :
    (r.reply req disp).display = disp ∧ (r.reply req disp).pending = false ∧ (r.reply req disp).latch = r.latch ∧
      (r.reply req disp).lastTcnt = r.lastTcnt ∧ (r.reply req disp).tsample = r.tsample := by
  unfold ModeRegs.reply
  dsimp only
  split <;> exact ⟨rfl, rfl, rfl, rfl, rfl⟩

/-- DLGRET's transition: a valid request enters its target, any other changes neither MODE, HIST nor FRESH (R141, R142). -/
theorem ModeRegs.reply_cases (r : ModeRegs) (req : ExitReq) (disp : DataWord) :
    (req = .prev ∧ r.mode.isEditing = true ∧
        r.reply req disp = { r with display := disp, pending := false, mode := r.hist, fresh := true }) ∨
      (req = .full ∧ r.mode = .ballGame ∧
        r.reply req disp = { r with display := disp, pending := false, mode := .fullBinary, fresh := true }) ∨
      (¬ (req = .prev ∧ r.mode.isEditing = true) ∧ ¬ (req = .full ∧ r.mode = .ballGame) ∧
        r.reply req disp = { r with display := disp, pending := false }) := by
  obtain ⟨mode, hist, fresh, latch, pending, last, ts, d⟩ := r
  cases req <;> cases mode <;> simp [ModeRegs.reply, ModeRegs.exitTarget, ClockMode.isEditing, ModeRegs.enter]

/-! ## The PWM step -/

theorem BrightRegs.pwmTick_of_step_nine {b : BrightRegs} (h : b.step.toNat = 9) :
    b.pwmTick = BrightRegs.periodEnd { b with out := pwmOn b.step b.level, step := 0#4 } := by
  simp [BrightRegs.pwmTick, periodEnds, pwmMax, h]

theorem BrightRegs.pwmTick_of_step_ne_nine {b : BrightRegs} (h : b.step.toNat ≠ 9) :
    b.pwmTick = { b with out := pwmOn b.step b.level, step := BitVec.ofNat 4 (b.step.toNat + 1) } := by
  simp [BrightRegs.pwmTick, periodEnds, pwmMax, h]

/-- PERIOD_END leaves the step, the enable, the requested level and the output. -/
theorem BrightRegs.periodEnd_frame (b : BrightRegs) :
    b.periodEnd.step = b.step ∧ b.periodEnd.fadeEn = b.fadeEn ∧ b.periodEnd.req = b.req ∧ b.periodEnd.out = b.out ∧
      b.periodEnd.reqValid = false := by
  unfold BrightRegs.periodEnd
  cases hv : b.reqValid <;> cases hf : b.fadeEn <;> simp [hv, hf]

theorem BrightRegs.pwmTick_out (b : BrightRegs) : b.pwmTick.out = pwmOn b.step b.level := by
  by_cases h : b.step.toNat = 9
  · rw [pwmTick_of_step_nine h, (periodEnd_frame _).2.2.2.1]
  · rw [pwmTick_of_step_ne_nine h]

/-! ## The debounce sample -/

/-- DB_SAMPLE's three cases (R210). -/
theorem ButtonRegs.sample_cases (c : Config) (raw : Bool) (b : ButtonRegs) :
    (logicalPressed c raw = b.stable ∧ b.sample c raw = { stable := b.stable, cnt := 0#16, edge := .none }) ∨
      (logicalPressed c raw = (!b.stable) ∧ c.dbWindow ≤ b.cnt.toNat + 1 ∧
        b.sample c raw = { stable := !b.stable, cnt := 0#16, edge := Edge.toLevel (!b.stable) }) ∨
      (logicalPressed c raw = (!b.stable) ∧ b.cnt.toNat + 1 < c.dbWindow ∧
        b.sample c raw = { stable := b.stable, cnt := BitVec.ofNat 16 (b.cnt.toNat + 1), edge := .none }) := by
  by_cases hp : logicalPressed c raw = b.stable
  · exact .inl ⟨hp, by simp [ButtonRegs.sample, hp]⟩
  · have hp' : logicalPressed c raw = (!b.stable) := by
      cases h₁ : logicalPressed c raw <;> cases h₂ : b.stable <;> simp_all
    by_cases hw : c.dbWindow ≤ b.cnt.toNat + 1
    · exact .inr (.inl ⟨hp', hw, by simp [ButtonRegs.sample, hp', windowReached, hw]⟩)
    · exact .inr (.inr ⟨hp', by omega, by simp [ButtonRegs.sample, hp', windowReached, hw]⟩)

/-- A sample does not read the edge it overwrites (R217). -/
theorem ButtonRegs.sample_edge_irrelevant (c : Config) (raw : Bool) (e : Edge) (b : ButtonRegs) :
    ButtonRegs.sample c raw { b with edge := e } = b.sample c raw := rfl

/-! ## What a completed operation can be -/

/-- Every completed operation, with the state it leaves. -/
theorem exec_next_cases {i : Instr} {s t : State} (h : exec i s = .next t) :
    (∃ ra rb, i = .tick ra rb ∧
        t = { s with brt := s.brt.pwmTick, btnA := s.btnA.sample s.cfg ra, btnB := s.btnB.sample s.cfg rb,
                     tcnt := s.tcnt + 1#32 }) ∨
      (i = .iter ∧ s.fsm.pending = false ∧ t = s.iterPass) ∨
      (∃ req disp, i = .dlgret req disp ∧ s.fsm.pending = true ∧ t = { s with fsm := s.fsm.reply req disp }) ∨
      (∃ en, i = .fade en ∧ t = { s with brt := { s.brt with fadeEn := en } }) ∨
      (∃ lvl, i = .bset lvl ∧ levelInRange lvl = true ∧
        t = { s with brt := { s.brt with req := lvl, reqValid := true } }) ∨
      (∃ lvl, i = .bset lvl ∧ levelInRange lvl = false ∧ t = s) ∨
      ((i = .rdmode ∨ i = .rdbrt ∨ i = .rddisp) ∧ ∃ v, t = s.giveResult v) ∨
      (i = .reset ∧ t = s.resetRegisters) := by
  cases i with
  | tick ra rb => rw [exec_tick] at h; cases h; exact .inl ⟨ra, rb, rfl, rfl⟩
  | iter =>
    cases hp : s.fsm.pending
    · rw [exec_iter_of_not_pending hp] at h; cases h; exact .inr (.inl ⟨rfl, rfl, rfl⟩)
    · rw [exec_iter_of_pending hp] at h; cases h
  | dlgret req disp =>
    cases hp : s.fsm.pending
    · rw [exec_dlgret_of_not_pending req disp hp] at h; cases h
    · rw [exec_dlgret_of_pending req disp hp] at h; cases h
      exact .inr (.inr (.inl ⟨req, disp, rfl, rfl, rfl⟩))
  | fade en => rw [exec_fade] at h; cases h; exact .inr (.inr (.inr (.inl ⟨en, rfl, rfl⟩)))
  | bset lvl =>
    rw [exec_bset] at h
    cases hl : levelInRange lvl
    · rw [hl] at h; cases h; exact .inr (.inr (.inr (.inr (.inr (.inl ⟨lvl, rfl, hl, rfl⟩)))))
    · rw [hl] at h; cases h; exact .inr (.inr (.inr (.inr (.inl ⟨lvl, rfl, hl, rfl⟩))))
  | rdmode =>
    rw [exec_rdmode] at h; cases h
    exact .inr (.inr (.inr (.inr (.inr (.inr (.inl ⟨.inl rfl, _, rfl⟩))))))
  | rdbrt =>
    rw [exec_rdbrt] at h; cases h
    exact .inr (.inr (.inr (.inr (.inr (.inr (.inl ⟨.inr (.inl rfl), _, rfl⟩))))))
  | rddisp =>
    rw [exec_rddisp] at h; cases h
    exact .inr (.inr (.inr (.inr (.inr (.inr (.inl ⟨.inr (.inr rfl), _, rfl⟩))))))
  | reset => rw [exec_reset] at h; cases h; exact .inr (.inr (.inr (.inr (.inr (.inr (.inr ⟨rfl, rfl⟩))))))

/-- An operation leaves the parameters, the marks, the input ports and the stream. -/
theorem exec_frame {i : Instr} {s t : State} (h : exec i s = .next t) :
    t.cfg = s.cfg ∧ t.faultMark = s.faultMark ∧ t.refusalMark = s.refusalMark ∧ t.input = s.input ∧
      t.stream = s.stream := by
  rcases exec_next_cases h with ⟨_, _, -, rfl⟩ | ⟨-, -, rfl⟩ | ⟨_, _, -, -, rfl⟩ | ⟨_, -, rfl⟩ | ⟨_, -, -, rfl⟩ |
    ⟨_, -, -, rfl⟩ | ⟨-, _, rfl⟩ | ⟨-, rfl⟩ <;> simp

/-! ## What a step can be -/

/-- Every step that answers a next state: the state is halted, nothing is presented, or the presented operation decodes
and completes. -/
theorem step_next_cases {s t : State} (h : step s = .next t) :
    (s.halted = true ∧ t = s) ∨ (s.halted = false ∧ s.stream = [] ∧ t = s) ∨
      ∃ p rest i, s.halted = false ∧ s.stream = p :: rest ∧ p.decode = .ok i ∧ exec i (s.take p rest) = .next t := by
  unfold step stepOn at h
  cases hh : s.halted
  · cases hs : s.stream with
    | nil => simp [hh, hs] at h; exact .inr (.inl ⟨rfl, rfl, h.symm⟩)
    | cons p rest =>
      simp only [hh, hs, Bool.false_eq_true, if_false, perform] at h
      cases hd : p.decode with
      | error e => simp [hd] at h
      | ok i => exact .inr (.inr ⟨p, rest, i, rfl, rfl, hd, by simpa [hd] using h⟩)
  · simp [hh] at h; exact .inl ⟨rfl, h.symm⟩

/-- A step at an operation that decodes is the operation's meaning. -/
theorem step_of_decode {s : State} {p : Presented} {rest : List Presented} {i : Instr} (hh : s.halted = false)
    (hs : s.stream = p :: rest) (hd : p.decode = .ok i) : step s = exec i (s.take p rest) := by
  simp [step, stepOn, hh, hs, perform, hd]

/-- A fact about states that does not look at the stream and the input ports, and that every operation keeps, is kept by
every step. -/
theorem step_keeps {P : State → Prop} (hExec : ∀ i s t, P s → exec i s = .next t → P t)
    (hTake : ∀ s p rest, P s → P (s.take p rest)) {s t : State} (hs : P s) (h : step s = .next t) : P t := by
  rcases step_next_cases h with ⟨-, rfl⟩ | ⟨-, -, rfl⟩ | ⟨p, rest, i, -, -, -, he⟩
  · exact hs
  · exact hs
  · exact hExec i _ t (hTake s p rest hs) he

/-- What an operation does does not depend on the operations still to be presented. -/
theorem exec_with_stream (i : Instr) (s : State) (rest : List Presented) :
    exec i { s with stream := rest } =
      match exec i s with
      | .next t => .next { t with stream := rest }
      | .fault r => .fault r
      | .refused r => .refused r := by
  cases i with
  | iter =>
    simp only [exec, execIter]
    split
    · rfl
    · simp only [State.iterPass]
      split <;> split <;> first | rfl | contradiction
  | dlgret => simp only [exec, execDlgret]; split <;> rfl
  | bset => simp only [exec, execBset]; split <;> rfl
  | tick | fade | rdmode | rdbrt | rddisp | reset => rfl

/-- An ITER emits a dispatch exactly when none is outstanding and the mode after the chord is not Paused (R130, R137). -/
theorem iterEmits_eq (s : State) :
    s.iterEmits = (!s.fsm.pending && decide (s.modeAfterChord.mode ≠ .paused)) := by
  cases hp : s.fsm.pending
  · by_cases hm : s.modeAfterChord.mode = .paused
    · simp [State.iterEmits, execIter, hp, State.iterPass_of_paused hm, hm, State.modeAfterChord_pending]
    · simp [State.iterEmits, execIter, hp, State.iterPass_of_not_paused hm, hm]
  · simp [State.iterEmits, execIter, hp]

end Sys2Proof.Machine

namespace Sys2Proof.Safety

open Sys2Proof.Machine

/-! ## Runs -/

/-- The host's run of the machine is `runSteps`. -/
theorem core_run_eq (n : Nat) (s : State) : core.run n s = runSteps n s := by
  induction n generalizing s with
  | zero => rfl
  | succ n ih =>
    cases h : step s with
    | next u => have h' : core.step s = .next u := h; simpa [Host.Core.run, h', runSteps, h] using ih u
    | fault r => have h' : core.step s = .fault r := h; simp [Host.Core.run, h', runSteps, h]; rfl
    | refused r => have h' : core.step s = .refused r := h; simp [Host.Core.run, h', runSteps, h]; rfl

/-- A fact that every step keeps holds after any number of steps. -/
theorem run_keeps {P : State → Prop} (hStep : ∀ s t, P s → step s = .next t → P t) :
    ∀ (n : Nat) (s t : State), P s → runSteps n s = .next t → P t
  | 0, s, t, hs, h => by cases h; exact hs
  | n + 1, s, t, hs, h => by
    unfold runSteps at h
    cases hst : step s with
    | next u => rw [hst] at h; exact run_keeps hStep n u t (hStep s u hs hst) h
    | fault r => rw [hst] at h; cases h
    | refused r => rw [hst] at h; cases h

/-- A run of at least one operation that completes: its first operation completes, and then the rest. -/
theorem performAll_cons {p : Performed} {l : List Performed} {s t : State}
    (h : performAll (p :: l) s = .next t) :
    ∃ u, performOne p s = .next u ∧ performAll l u = .next t := by
  unfold performAll at h
  cases hp : performOne p s with
  | next u => exact ⟨u, rfl, by simpa [hp] using h⟩
  | fault r => simp [hp] at h
  | refused r => simp [hp] at h

theorem performAll_cons_of_next {p : Performed} {l : List Performed} {s u : State} (h : performOne p s = .next u) :
    performAll (p :: l) s = performAll l u := by
  rw [performAll, h]

/-- A run of two parts is the second after the first. -/
theorem performAll_append (l₁ l₂ : List Performed) (s : State) :
    performAll (l₁ ++ l₂) s =
      match performAll l₁ s with
      | .next t => performAll l₂ t
      | .fault r => .fault r
      | .refused r => .refused r := by
  induction l₁ generalizing s with
  | nil => rfl
  | cons p ps ih =>
    rw [List.cons_append, performAll, performAll]
    cases performOne p s with
    | next u => exact ih u
    | fault r => rfl
    | refused r => rfl

/-- A fact that every performed operation of the run keeps holds at its end. -/
theorem performAll_keeps {P : State → Prop} {l : List Performed}
    (hOne : ∀ p ∈ l, ∀ s t, P s → performOne p s = .next t → P t) {s t : State} (hs : P s)
    (h : performAll l s = .next t) : P t := by
  induction l generalizing s with
  | nil => cases h; exact hs
  | cons p ps ih =>
    obtain ⟨u, hu, ht⟩ := performAll_cons h
    exact ih (fun q hq => hOne q (List.mem_cons_of_mem p hq)) (hOne p List.mem_cons_self s u hs hu) ht

theorem countTicks_cons (p : Performed) (l : List Performed) :
    countTicks (p :: l) = countTicks l + if isTick p.instr then 1 else 0 := by
  simp [countTicks, List.countP_cons]

@[simp] theorem countTicks_nil : countTicks [] = 0 := rfl

end Sys2Proof.Safety
end

