-- ==== Sys2Proof/Laws/PerInstr.lean ====
section
/-! SUPPORT. Facts about an operation as syntax, one lemma per constructor: an encoded operation lies in its own row of
the opcode map (spec 30_encoding.md R112). -/

namespace Sys2Proof.Laws.EncodesInRow

/-- The encoding of the operation matches its row: the opcode field is the row's, and the must-be-zero bits are 0. -/
def Statement (i : Instr) : Prop :=
  Opcode.ofBits (opField (encode i)) = some i.opcode ∧ encode i &&& i.opcode.mask = i.opcode.pattern

theorem tick (ra rb : Bool) : Statement (.tick ra rb) := by
  revert ra rb; unfold Statement; decide

theorem iter : Statement .iter := by unfold Statement; decide

theorem dlgret (req : ExitReq) (disp : DataWord) : Statement (.dlgret req disp) := by
  suffices h : Statement (.dlgret req 0#32) from h
  unfold Statement
  cases req <;> decide

theorem fade (en : Bool) : Statement (.fade en) := by
  revert en; unfold Statement; decide

theorem bset (lvl : BitVec 4) : Statement (.bset lvl) := by
  revert lvl; unfold Statement; decide

theorem rdmode : Statement .rdmode := by unfold Statement; decide

theorem rdbrt : Statement .rdbrt := by unfold Statement; decide

theorem rddisp : Statement .rddisp := by unfold Statement; decide

theorem reset : Statement .reset := by unfold Statement; decide

end Sys2Proof.Laws.EncodesInRow
end

