-- ==== Sys2Proof/Tests/Slice0.lean ====
section
/-! SUPPORT. The model's own tests. Expected values are those of spec 95_test_vectors.md (the vector is named) or written
out by hand from the rule named. Then, for every statement with hypotheses, a witness that meets them. -/

namespace Sys2Proof.Tests

open Sys2Proof Sys2Proof.Machine Sys2Proof.Safety

/-! ## Helpers -/

/-- The reset state in the example configuration EX (R10). -/
abbrev ex : State := State.resetWith Config.ex

/-- A time sample. -/
abbrev noon : TimeSample := ⟨24, 2, 29, 12, 0, 0⟩

/-- An operation performed by the first agent of its row. -/
def op (i : Instr) : Performed := ⟨i.agents.headD .main, i, noon⟩

/-- What a next state shows; nothing after a fault or a refusal. -/
def shows {α : Type} (f : State → α) : Host.Outcome State Fault Refusal → Option α
  | .next t => some (f t)
  | .fault _ => none
  | .refused _ => none

/-- EX with the mode machine's registers replaced. -/
abbrev exMode (mode hist : ClockMode) (fresh latch pending : Bool) : State :=
  { ex with fsm := { ModeRegs.reset with mode := mode, hist := hist, fresh := fresh, latch := latch, pending := pending } }

/-- EX with both buttons stably pressed and given edges. -/
abbrev pressed (s : State) (eA eB : Edge) : State :=
  { s with btnA := ⟨true, 0#16, eA⟩, btnB := ⟨true, 0#16, eB⟩ }

/-- EX with the brightness registers replaced. -/
abbrev exBright (b : BrightRegs) : State := { ex with brt := b }

/-- Is the outcome a next state? -/
def completes : Host.Outcome State Fault Refusal → Bool
  | .next _ => true
  | .fault _ => false
  | .refused _ => false

/-! ## Well-formedness: an ill-formed term for each check (R113, R115, R117) -/

theorem test_wf_refuses_reserved_opcode : Presented.wf ⟨.main, 0x9000#16, 0#32, noon⟩ = false := by decide
theorem test_wf_refuses_reserved_bits : Presented.wf ⟨.tick, 0x1004#16, 0#32, noon⟩ = false := by decide
theorem test_wf_refuses_wrong_agent : Presented.wf ⟨.main, 0x1000#16, 0#32, noon⟩ = false := by decide
theorem test_wf_refuses_wrong_performer : Performed.wf ⟨.reader, .fade true, noon⟩ = false := by decide
theorem test_wf_accepts_reader : Performed.wf ⟨.reader, .rdbrt, noon⟩ = true := by decide

/-! ## Decoding: words written out from R101 and R112, and vectors X-1 to X-17 -/

theorem test_decode_tick : decode .tick 0b0001000000000010#16 0#32 = .ok (.tick false true) := by rfl
theorem test_decode_iter : decode .main 0b0010000000000000#16 0#32 = .ok .iter := by rfl
theorem test_decode_dlgret : decode .main 0b0011000000000010#16 0xA5A5A5A5#32 = .ok (.dlgret .full 0xA5A5A5A5#32) := by rfl
theorem test_decode_fade : decode .main 0b0100000000000001#16 0#32 = .ok (.fade true) := by rfl
theorem test_decode_bset : decode .main 0b0101000000001010#16 0#32 = .ok (.bset 10#4) := by rfl
theorem test_decode_rdmode : decode .reader 0b0110000000000000#16 0#32 = .ok .rdmode := by rfl
theorem test_decode_rdbrt : decode .main 0b0111000000000000#16 0#32 = .ok .rdbrt := by rfl
theorem test_decode_rddisp : decode .reader 0b1000000000000000#16 0#32 = .ok .rddisp := by rfl
theorem test_decode_reset : decode .env 0b1111000000000000#16 0#32 = .ok .reset := by rfl
theorem test_decode_X3 : decode .env 0xE123#16 0#32 = .error .reservedOpcode := by rfl
theorem test_decode_X9 : decode .reader 0x7100#16 0#32 = .error .nonzeroReservedBits := by rfl
theorem test_decode_X14 : decode .env 0x6000#16 0#32 = .error .wrongAgent := by rfl
theorem test_decode_X16_reserved_first : decode .main 0x9001#16 0#32 = .error .reservedOpcode := by rfl
theorem test_decode_X17_bits_before_agent : decode .main 0x1004#16 0#32 = .error .nonzeroReservedBits := by rfl

/-- The host's form: bits 47..16 are the data word, and a shorter row leaves it 0. -/
theorem test_table_word_dlgret : decodeTableWord 48 0x123456783001 = some (.dlgret .prev 0x12345678#32) := by decide
theorem test_table_word_short_dlgret : decodeTableWord 16 0x3001 = some (.dlgret .prev 0#32) := by decide
theorem test_table_word_bset : decodeTableWord 16 0x5006 = some (.bset 6#4) := by decide
theorem test_table_word_reserved : decodeTableWord 16 0x0000 = none := by decide

/-- Every row's word is the first operation after reset (DLGRET faults there: no dispatch is outstanding, M-24). -/
theorem test_first_operation_after_reset :
    [0x1000, 0x2000, 0x4000, 0x5000, 0x6000, 0x7000, 0x8000, 0xF000].all
      (fun w => completes (step (State.reset.withFetchWord 16 w))) = true := by decide
theorem test_first_dlgret_after_reset_faults :
    step (State.reset.withFetchWord 48 0x3000) = .fault (.protoRetWithoutDispatch 0x3000#16 0#32) := by rfl

/-! ## TICK (T-1, T-2, B-2, D-4, D-10) -/

theorem test_tick_T1 :
    shows (fun t => (t.brt.out, t.brt.step, t.btnA.cnt, t.btnB.cnt, t.tcnt)) (exec (.tick true false) ex) =
      some (true, 1#4, 1#16, 0#16, 1#32) := by decide
theorem test_tick_T2_wraps :
    shows (fun t => t.tcnt) (exec (.tick false false) { ex with tcnt := 0xFFFFFFFF#32 }) = some 0#32 := by decide
theorem test_pwm_B5 :
    shows (fun t => (t.brt.out, t.brt.step)) (exec (.tick false false) (exBright { BrightRegs.reset with step := 9, level := 5 })) =
      some (false, 0#4) := by decide
theorem test_period_end_B8 :
    shows (fun t => (t.brt.level, t.brt.fadeDir))
      (exec (.tick false false) (exBright ⟨9, 6, .down, true, false, 0, false⟩)) = some (5#4, .up) := by decide
theorem test_period_end_B12_request_beats_fade :
    shows (fun t => (t.brt.level, t.brt.fadeDir, t.brt.reqValid))
      (exec (.tick false false) (exBright ⟨9, 5, .up, true, true, 10, false⟩)) = some (10#4, .down, false) := by decide
theorem test_debounce_D4 :
    ButtonRegs.sample Config.ex true ⟨false, 2, .none⟩ = ⟨true, 0, .pressed⟩ := by decide
theorem test_debounce_D10_active_low :
    ButtonRegs.sample { Config.ex with pressedLevel := false } false ⟨false, 2, .none⟩ = ⟨true, 0, .pressed⟩ := by decide
theorem test_debounce_D10b_longest_window :
    ButtonRegs.sample ⟨65534, true, 0⟩ true ⟨false, 65534, .none⟩ = ⟨true, 0, .pressed⟩ := by decide

/-! ## ITER (M-1, M-2, M-7, M-9, M-13, M-16a) -/

theorem test_iter_M2_delivers_edge :
    shows (fun t => t.emitted.map fun d => d.hdr)
      (exec .iter { exMode .fullBinary .fullBinary false false false with btnA := ⟨true, 0, .pressed⟩ }) =
        some [0x0A10#16] := by decide
theorem test_iter_M7_saves_history :
    shows (fun t => (t.fsm.mode, t.fsm.hist, t.emitted.map fun d => d.hdr))
      (exec .iter (pressed (exMode .ballGame .fullBinary false false false) .none .pressed)) =
        some (.manualSet, .ballGame, [0x0A0B#16]) := by decide
theorem test_iter_M9_enters_paused :
    shows (fun t => (t.fsm.mode, t.fsm.hist, t.fsm.pending, t.emitted))
      (exec .iter (pressed (exMode .serialSet .ballGame false false false) .none .none)) =
        some (.paused, .ballGame, false, []) := by decide
theorem test_iter_M13_masks_and_unlatches :
    shows (fun t => (t.fsm.latch, t.emitted.map fun d => d.hdr))
      (exec .iter { exMode .subBinary .fullBinary false true false with
        btnA := ⟨false, 0, .released⟩, btnB := ⟨false, 0, .released⟩ }) = some (false, [0x0A01#16]) := by decide
theorem test_iter_M16a_elapsed_wraps :
    shows (fun t => t.emitted.map fun d => d.elapsed)
      (exec .iter { ex with tcnt := 1#32, fsm := { ModeRegs.reset with lastTcnt := 0xFFFFFFFE#32 } }) = some [3#32] := by
  decide

/-! ## DLGRET (M-17, M-18, M-23) -/

theorem test_dlgret_M18_prev :
    shows (fun t => (t.fsm.mode, t.fsm.hist, t.fsm.fresh, t.fsm.pending, t.fsm.display))
      (exec (.dlgret .prev 0x12345678) (exMode .manualSet .ballGame false false true)) =
        some (.ballGame, .ballGame, true, false, 0x12345678#32) := by decide
theorem test_dlgret_M23_rsv_ignored :
    shows (fun t => (t.fsm.mode, t.fsm.fresh, t.fsm.pending, t.fsm.display))
      (exec (.dlgret .rsv 0xA5A5A5A5) (exMode .ballGame .fullBinary false false true)) =
        some (.ballGame, false, false, 0xA5A5A5A5#32) := by decide

/-! ## FADE, BSET, reads, RESET (B-18, B-20, B-23, R-2, M-25, R-4) -/

theorem test_fade_B18 : shows (fun t => brightResult t.brt) (exec (.fade true) ex) = some 0x2A#32 := by decide
theorem test_bset_B20 :
    shows (fun t => (t.brt.reqValid, t.brt.req, t.brt.level)) (exec (.bset 6) ex) = some (true, 6#4, 10#4) := by decide
theorem test_bset_B23_ignored : exec (.bset 11) ex = .next ex := by rfl
theorem test_rdbrt_R2 :
    shows (fun t => t.returned.map fun r => r.value) (exec .rdbrt (exBright ⟨0, 5, .up, true, false, 0, false⟩)) =
      some [0x35#32] := by decide
theorem test_rdmode_M25 :
    shows (fun t => t.returned.map fun r => r.value) (exec .rdmode (exMode .subBinary .fullBinary false false false)) =
      some [1#32] := by decide
theorem test_rddisp_M25 :
    shows (fun t => t.returned) (exec .rddisp { ex with fsm := { ModeRegs.reset with display := 0x0000F00F } }) =
      some [⟨.env, 0xF00F#32⟩] := by decide
theorem test_reset_R4 :
    shows (fun t => (t.fsm, t.brt)) (exec .reset { exMode .ballGame .ballGame false true true with brt := ⟨3, 7, .up, true, true, 5, true⟩ }) =
      some (ModeRegs.reset, BrightRegs.reset) := by decide

/-! ## The step: X-18, P6 and P7, and the assembler -/

theorem test_step_X18_wrong_agent_before_fault :
    step { exMode .fullBinary .fullBinary false false true with stream := [⟨.tick, 0x2000, 0, noon⟩] } =
      .refused .wrongAgent := by rfl
theorem test_P6_reset_after_fault_is_not_taken :
    advance (advance { exMode .fullBinary .fullBinary false false true with
      stream := [⟨.main, 0x2000, 0, noon⟩, ⟨.env, 0xF000, 0, noon⟩] }) =
    { exMode .fullBinary .fullBinary false false true with
      stream := [⟨.main, 0x2000, 0, noon⟩, ⟨.env, 0xF000, 0, noon⟩],
      faultMark := [.protoIterWhilePending 0x2000] } := by decide
theorem test_asm_line : parseLine "M: DLGRET PREV, 0x00000333 ; reply".toList = some ⟨some .main, .op (.dlgret .prev 0x333)⟩ := by
  decide
theorem test_asm_hold : parseLine "T: HOLD 1,0,3".toList = some ⟨some .tick, .hold true false 3⟩ := by decide

/-! ## Witnesses: for each statement with hypotheses, a state and operands that meet them, clause by clause -/

theorem witness_DecodeFollowsTheProcedure :
    (0xE123#16 : OpWord).toNat / 4096 ∈ reservedOpcodes ∧
    (∃ row ∈ opcodeMap, row.op = (0xF001#16 : OpWord).toNat / 4096 ∧ 0xF001#16 &&& row.mask ≠ row.pattern) ∧
    (∃ row ∈ opcodeMap, row.op = (0x1000#16 : OpWord).toNat / 4096 ∧ 0x1000#16 &&& row.mask = row.pattern ∧
      Agent.main ∉ row.agents) ∧
    (∃ row ∈ opcodeMap, row.op = (0x1003#16 : OpWord).toNat / 4096 ∧ 0x1003#16 &&& row.mask = row.pattern ∧
      Agent.tick ∈ row.agents) := by decide

theorem witness_EveryOpcodeIsReservedOrHasOneRow : (0 < 16 ∧ 0 ∈ reservedOpcodes) ∧ (15 < 16 ∧ 15 ∉ reservedOpcodes) := by
  decide

/-- Also the witness of EncodeInvertsDecode. -/
theorem witness_DecodedOperandsAreTheWordsBits :
    ∃ i, decode .main 0x500F#16 0#32 = .ok i ∧ i = .bset 15 := ⟨_, rfl, rfl⟩

theorem witness_LengthIsDecidedByTheOpcode :
    (0x3FFF#16 : OpWord).toNat / 4096 = 3 ∧ (0x4000#16 : OpWord).toNat / 4096 ≠ 3 ∧
      (0x2FFF#16 : OpWord).toNat / 4096 ≠ 3 := by decide

/-- The presented operation of the step witnesses. -/
abbrev fadeWord : Presented := ⟨.main, 0x4001, 0, noon⟩

theorem witness_StepPerformsTheDecodedOperation :
    ∃ (s : State) (i : Instr), s.halted = false ∧ s.stream = fadeWord :: [] ∧
      decode fadeWord.agent fadeWord.word fadeWord.data = .ok i := ⟨{ ex with stream := [fadeWord] }, _, rfl, rfl, rfl⟩

theorem witness_StepRefusesTheUndecodable (e : DecodeError) :
    ∃ (s : State) (p : Presented), s.halted = false ∧ s.stream = p :: [] ∧ decode p.agent p.word p.data = .error e := by
  cases e
  · exact ⟨{ ex with stream := [⟨.main, 0x0000, 0, noon⟩] }, _, rfl, rfl, rfl⟩
  · exact ⟨{ ex with stream := [⟨.main, 0x2001, 0, noon⟩] }, _, rfl, rfl, rfl⟩
  · exact ⟨{ ex with stream := [⟨.tick, 0x2000, 0, noon⟩] }, _, rfl, rfl, rfl⟩

/-- Also the witness of the first clause of FaultAndRefusalWriteOnlyTheirMark. -/
theorem witness_RefusalComesBeforeTheFaultCheck :
    ∃ (s : State) (p : Presented) (f : Fault), s.stream = p :: [] ∧ step s = .fault f :=
  ⟨{ ex with stream := [⟨.main, 0x3002, 7, noon⟩] }, _, _, rfl, rfl⟩

theorem witness_FaultAndRefusalWriteOnlyTheirMark_refusal : ∃ (s : State) (r : Refusal), step s = .refused r :=
  ⟨{ ex with stream := [⟨.main, 0xF000, 0, noon⟩] }, _, rfl⟩

theorem witness_HaltedStateIsQuiescent :
    (ex.recordFault (.protoIterWhilePending 0x2000)).faultMark ≠ [] ∧ ex.recordRefusal.refusalMark = true := by decide

theorem witness_RunOfEncodedStreamPerformsTheOperations :
    ex.halted = false ∧ ∀ p ∈ [op (.tick true true), op .iter, op (.dlgret .rsv 5), op .rdmode], p.wf = true := by decide

theorem witness_ParametersAreFixedForTheRun :
    ∃ t, runSteps 2 { ex with stream := [fadeWord, (op (.tick true true)).present] } = .next t := ⟨_, rfl⟩

theorem witness_TickDrivesTheSoftPwm :
    (exBright { BrightRegs.reset with step := 9 }).brt.step.toNat = 9 ∧
      (exBright { BrightRegs.reset with step := 8 }).brt.step.toNat < 9 ∧ ex.brt.step.toNat < 9 := by decide

/-- The four clauses of PERIOD_END, each at step 9. -/
theorem witness_PeriodEndAppliesRequestOrFade :
    (⟨9, 10, .down, true, true, 5, true⟩ : BrightRegs).reqValid = true ∧
    ((⟨9, 9, .up, true, false, 0, true⟩ : BrightRegs).reqValid = false ∧
      (⟨9, 9, .up, true, false, 0, true⟩ : BrightRegs).fadeDir = .up) ∧
    ((⟨9, 6, .down, true, false, 0, true⟩ : BrightRegs).reqValid = false ∧
      (⟨9, 6, .down, true, false, 0, true⟩ : BrightRegs).fadeDir = .down) ∧
    (⟨9, 7, .up, false, false, 0, true⟩ : BrightRegs).fadeEn = false := by decide

/-- The three cases of a sample in EX: agreement, the last sample of a window, an earlier one. -/
theorem witness_TickSamplesEachButton :
    rawOf .A (.tick true false) = some true ∧ (true == ex.cfg.pressedLevel) = true ∧
    ex.cfg.dbWindow ≤ (2#16 : BitVec 16).toNat + 1 ∧ (1#16 : BitVec 16).toNat + 1 < ex.cfg.dbWindow := by decide

theorem witness_TickCountsAndWritesNoOtherRegister : ex.brt.step.toNat ≠ 9 := by decide

theorem witness_TickPartsMayComeInAnyOrder :
    [State.countPart, State.pwmPart, State.samplePartA true, State.samplePartB true].Perm
      [State.pwmPart, State.samplePartA true, State.samplePartB true, State.countPart] :=
  List.perm_append_comm (l₁ := [State.countPart])

/-- Ten TICKs with other operations between them. -/
abbrev tenTicks : List Performed :=
  op (.fade false) :: List.replicate 4 (op (.tick false true)) ++ op (.bset 7) :: List.replicate 6 (op (.tick true true))

theorem witness_DutyLaw :
    ∃ t, ex.brt.step.toNat = 0 ∧ ex.brt.level.toNat ≤ 10 ∧ NoReset tenTicks ∧ countTicks tenTicks = 10 ∧
      performAll tenTicks ex = .next t ∧
      ∃ (l₁ l₂ : List Performed) (u : State), tenTicks = l₁ ++ l₂ ∧ countTicks l₁ < 10 ∧ performAll l₁ ex = .next u :=
  ⟨_, by decide, by decide, by unfold NoReset; decide, by decide, rfl, tenTicks.take 3, tenTicks.drop 3, _, rfl, by decide, rfl⟩

theorem witness_PingPongLaw :
    ∃ (l : List Performed) (s t : State), s.brt.step.toNat = 0 ∧ s.brt.level.toNat = 10 ∧ s.brt.fadeDir = .down ∧
      s.brt.fadeEn = true ∧ s.brt.reqValid = false ∧ NoReset l ∧ (∀ p ∈ l, p.instr ≠ .fade false) ∧
      (∀ p ∈ l, ∀ lvl, p.instr ≠ .bset lvl) ∧ performAll l s = .next t :=
  ⟨List.replicate 10 (op (.tick false false)), exBright { BrightRegs.reset with fadeEn := true }, _, by decide, by decide,
    by decide, by decide, by decide, by unfold NoReset; decide, by decide, by decide, rfl⟩

theorem witness_ShortRunsProduceNoEdge :
    ∃ (l : List Performed) (t : State), (button .A ex).cnt.toNat = 0 ∧ NoReset l ∧
      Holds ex.cfg .A (!(button .A ex).stable) l ∧ countTicks l < ex.cfg.dbWindow ∧ performAll l ex = .next t ∧
      rawOf .A (.tick false true) = some false ∧ (false == ex.cfg.pressedLevel) = (button .A ex).stable :=
  ⟨[op (.tick true false), op (.tick true true)], _, by decide, by unfold NoReset; decide, by unfold Holds; decide,
    by decide, rfl, by decide, by decide⟩

/-- Three samples of the new level with an ITER between them. -/
abbrev press : List Performed := [op (.tick true false), op .iter, op (.tick true true), op (.tick true false)]

/-- Also the witness of ButtonHeldThroughResetIsANewPress and, with the longer run, of EdgesOfAButtonAlternate. -/
theorem witness_HeldLevelProducesExactlyOneEdge :
    ∃ t, (button .A ex).cnt.toNat = 0 ∧ (button .A ex).stable = (!true) ∧ NoReset press ∧ Holds ex.cfg .A true press ∧
      ex.cfg.dbWindow = countTicks press ∧ performAll press ex = .next t :=
  ⟨_, by decide, by decide, by unfold NoReset; decide, by unfold Holds; decide, by decide, rfl⟩

theorem witness_IterWhilePendingFaults : (exMode .subBinary .fullBinary false false true).fsm.pending = true := by decide

/-- Also the witness of IterTakesTheSnapshot: the chord firing and not firing, into Paused and not. -/
theorem witness_ChordMovesTheModeOnce_and_IterDispatchesUnlessPaused :
    (pressed ex .pressed .none).fsm.pending = false ∧
    ((pressed ex .pressed .none).btnA.stable && (pressed ex .pressed .none).btnB.stable &&
      !(pressed ex .pressed .none).fsm.latch) = true ∧
    (ex.btnA.stable && ex.btnB.stable && !ex.fsm.latch) = false ∧
    shows (fun t => t.fsm.mode) (exec .iter (pressed ex .pressed .none)) ≠ some .paused ∧
    shows (fun t => t.fsm.mode) (exec .iter (pressed (exMode .serialSet .ballGame false false false) .none .none)) =
      some .paused := by decide

theorem witness_ElapsedCountsTheTicksBetweenPasses :
    ∃ s₀ s₁ s₂, performOne (op .iter) ex = .next s₀ ∧
      performAll [op (.dlgret .none 3), op (.tick false false), op (.tick true false)] s₀ = .next s₁ ∧
      NoReset [op (.dlgret .none 3), op (.tick false false), op (.tick true false)] ∧
      (∀ r ∈ [op (.dlgret .none 3), op (.tick false false), op (.tick true false)], r.instr ≠ .iter) ∧
      performOne (op .iter) s₁ = .next s₂ ∧ s₂.fsm.mode ≠ .paused :=
  ⟨_, _, _, rfl, rfl, by unfold NoReset; decide, by decide, rfl, by decide⟩

/-- A Paused state that satisfies the invariants. -/
theorem paused_invariants : Invariants (exMode .paused .ballGame true false false) := by
  refine ⟨?_, ?_, ?_, ?_⟩
  · unfold ButtonInv; decide
  · unfold ButtonInv; decide
  · constructor <;> decide
  · constructor <;> decide

theorem witness_PausedFreezesTheDisplay :
    ∃ t, NoReset [op .iter, op (.tick true true), op .rddisp] ∧
      Along (fun u => u.fsm.mode = .paused) [op .iter, op (.tick true true), op .rddisp] (exMode .paused .ballGame true false false) ∧
      performAll [op .iter, op (.tick true true), op .rddisp] (exMode .paused .ballGame true false false) = .next t :=
  ⟨_, by unfold NoReset; decide, ⟨rfl, rfl, rfl, rfl⟩, rfl⟩

theorem witness_HeldChordDoesNotCycleAgain :
    ∃ t, (pressed (exMode .subBinary .fullBinary false true false) .none .pressed).fsm.latch = true ∧
      NoReset [op .iter, op (.dlgret .none 1)] ∧
      (∀ p ∈ [op .iter, op (.dlgret .none 1)], ∀ req disp, p.instr = .dlgret req disp → req = .none) ∧
      Along (fun u => u.btnA.stable = true ∨ u.btnB.stable = true) [op .iter, op (.dlgret .none 1)]
        (pressed (exMode .subBinary .fullBinary false true false) .none .pressed) ∧
      performAll [op .iter, op (.dlgret .none 1)] (pressed (exMode .subBinary .fullBinary false true false) .none .pressed) =
        .next t := by
  refine ⟨_, rfl, by unfold NoReset; decide, ?_, ⟨.inl rfl, .inl rfl, .inl rfl⟩, rfl⟩
  intro p hp req disp h
  simp only [List.mem_cons, List.not_mem_nil, or_false] at hp
  rcases hp with rfl | rfl <;> simp [op] at h
  exact h.1.symm

theorem witness_DlgretWithoutDispatchFaults : ex.fsm.pending = false := by decide

theorem witness_DlgretPerformsTheExitRequest :
    (exMode .manualSet .ballGame false false true).fsm.pending = true ∧
    (exMode .manualSet .ballGame false false true).fsm.mode = .manualSet ∧
    (exMode .serialSet .ballGame false false true).fsm.mode = .serialSet ∧
    (exMode .ballGame .fullBinary false false true).fsm.mode = .ballGame := by decide

theorem witness_DlgretIgnoresAnInvalidRequest :
    (exMode .manualSet .ballGame false false true).fsm.pending = true ∧
    ¬ (ExitReq.full = .prev ∧ ((exMode .manualSet .ballGame false false true).fsm.mode = .manualSet ∨
      (exMode .manualSet .ballGame false false true).fsm.mode = .serialSet)) ∧
    ¬ (ExitReq.full = .full ∧ (exMode .manualSet .ballGame false false true).fsm.mode = .ballGame) := by decide

/-- MainLoopPassCompletes: both kinds of pass, with a dispatch and (in Paused) without. -/
theorem witness_MainLoopPassCompletes :
    ex.fsm.pending = false ∧ AsmOp.expand ex (.pass .none 7) = [.iter, .dlgret .none 7] ∧
    AsmOp.expand (exMode .paused .ballGame true false false) (.pass .none 7) = [.iter] := by decide

/-- PASS where a dispatch is outstanding (R130: the ITER faults and emits nothing). The dispatching and the Paused pass are those
of the witness above. -/
theorem test_pass_while_pending :
    AsmOp.expand (exMode .subBinary .fullBinary false false true) (.pass .full 7) = [.iter] := by decide

/-- Each premise of PassRepliesExactlyToADispatch is met. -/
theorem witness_PassRepliesExactlyToADispatch :
    (∃ d t, exec .iter ex = .next t ∧ t.emitted = d :: ex.emitted) ∧
    ¬ ∃ d t, exec .iter (exMode .subBinary .fullBinary false false true) = .next t ∧
      t.emitted = d :: (exMode .subBinary .fullBinary false false true).emitted :=
  ⟨⟨_, _, rfl, rfl⟩, by rintro ⟨d, t, h, -⟩; cases h⟩

/-- A completed operation that changes MODE, in each way there is. -/
theorem witness_ModeChangesOnlyByTheTransitionTable :
    shows (fun t => t.fsm.mode) (exec .iter (pressed ex .none .none)) = some .subBinary ∧
    shows (fun t => t.fsm.mode) (exec (.dlgret .prev 0) (exMode .serialSet .ballGame false false true)) = some .ballGame ∧
    shows (fun t => t.fsm.mode) (exec (.dlgret .full 0) (exMode .ballGame .fullBinary false false true)) = some .fullBinary ∧
    shows (fun t => t.fsm.mode) (exec .reset (exMode .paused .ballGame true false false)) = some .fullBinary := by decide

/-- A state that satisfies every invariant and steps: also the witness of StepKeepsTheInvariants and ReadersSeeALegalLevel. -/
theorem witness_HistoryIsNeverAnEditingMode :
    ∃ t, ((exMode .ballGame .fullBinary false false false).fsm.hist = .fullBinary ∨
      (exMode .ballGame .fullBinary false false false).fsm.hist = .ballGame) ∧
      step { exMode .ballGame .fullBinary false false false with stream := [(op .iter).present] } = .next t :=
  ⟨_, by decide, rfl⟩

theorem witness_PendingDispatchIsForTheActiveMode :
    ∃ t, PendingMatchesDispatch { ex with stream := [(op .iter).present] } ∧
      step { ex with stream := [(op .iter).present] } = .next t :=
  ⟨_, fun h => by simp [ModeRegs.reset] at h, rfl⟩

theorem witness_BsetFillsTheMailboxOrIsIgnored :
    (5 ≤ (5#4).toNat ∧ (5#4).toNat ≤ 10) ∧ (5 ≤ (10#4).toNat ∧ (10#4).toNat ≤ 10) ∧ (4#4).toNat < 5 ∧ 10 < (11#4).toNat := by
  decide

/-- The last step of a period: the request stands before the TICK and is applied by it. -/
theorem witness_LevelRequestWaitsForThePeriodEnd :
    ∃ s₀ t, performOne (op (.bset 6)) (exBright { BrightRegs.reset with step := 9 }) = .next s₀ ∧
      performAll [op (.tick false false)] s₀ = .next t ∧ NoReset [op (.tick false false)] ∧
      (∀ q ∈ [op (.tick false false)], ∀ k, q.instr ≠ .bset k) ∧
      countTicks [] + (exBright { BrightRegs.reset with step := 9 }).brt.step.toNat < 10 ∧
      countTicks [op (.tick false false)] + (exBright { BrightRegs.reset with step := 9 }).brt.step.toNat = 10 :=
  ⟨_, _, rfl, rfl, by unfold NoReset; decide, by decide, by decide, by decide⟩

theorem witness_ReadsAreInvisibleToTheRun : ∃ t, performAll [op .rdmode, op .iter, op .rdbrt] ex = .next t := ⟨_, rfl⟩

theorem witness_BrightnessIsIndependentOfTheModeMachine :
    ∃ t t', ex.brt = (exMode .paused .ballGame true false false).brt ∧
      ([op .iter, op (.tick true true), op (.fade true)].filterMap fun p => brightView p.instr) =
        [op (.tick false false), op .rdmode, op (.fade true)].filterMap (fun p => brightView p.instr) ∧
      performAll [op .iter, op (.tick true true), op (.fade true)] ex = .next t ∧
      performAll [op (.tick false false), op .rdmode, op (.fade true)] (exMode .paused .ballGame true false false) = .next t' :=
  ⟨_, _, rfl, by decide, rfl, rfl⟩

/-- A TICK, an ITER, a DLGRET, and an operation that is none of them, each completing. -/
theorem witness_RegistersAreWrittenOnlyByTheirOwners :
    ∃ t₁ t₂ t₃ t₄, exec (.tick true true) ex = .next t₁ ∧ exec .iter ex = .next t₂ ∧
      exec (.dlgret .none 1) (exMode .subBinary .fullBinary false false true) = .next t₃ ∧
      exec .rdmode (exBright { BrightRegs.reset with req := 6, reqValid := true }) = .next t₄ :=
  ⟨_, _, _, _, rfl, rfl, rfl, rfl⟩

theorem witness_StepKeepsTheInvariants :
    ∃ (s t : State), Invariants s ∧ step s = .next t :=
  ⟨{ exMode .paused .ballGame true false false with stream := [(op (.tick true true)).present] }, _,
    ⟨paused_invariants.1, paused_invariants.2, paused_invariants.3, paused_invariants.4⟩, rfl⟩

theorem witness_ReachableStatesSatisfyTheInvariants :
    ∃ t, performAll press (State.resetWith Config.ex) = .next t := ⟨_, rfl⟩

/-- The states of the run in which the tick interrupt comes for ever and nothing else happens. -/
def tickStates : Nat → State
  | 0 => State.resetWith Config.ex
  | n + 1 =>
    let s := (tickStates n).take (op (.tick false false)).present []
    ((s.pwmPart.samplePartA false).samplePartB false).countPart

theorem tickStates_running (n : Nat) : (tickStates n).halted = false ∧ (tickStates n).stream = [] := by
  induction n with
  | zero => exact ⟨rfl, rfl⟩
  | succ n ih => exact ⟨ih.1, rfl⟩

/-- An infinite run, so every premise of InfiniteRunsAreTheirFinitePrefixes about one is met. -/
theorem witness_InfiniteRunsAreTheirFinitePrefixes :
    InfiniteRun Config.ex (fun _ => (op (.tick false false)).present) tickStates :=
  ⟨rfl, fun n => step_of_decode (p := (op (.tick false false)).present) (rest := []) (i := .tick false false)
    (tickStates_running n).1 rfl rfl⟩

theorem ticks_complete : ∀ (n : Nat) (s : State), s.halted = false →
    s.stream = List.replicate n (op (.tick false false)).present → ∃ t, runSteps n s = .next t
  | 0, s, _, _ => ⟨s, rfl⟩
  | n + 1, s, hh, hs => by
    rw [runSteps, step_of_decode (i := .tick false false) hh (hs.trans List.replicate_succ) rfl, exec_tick]
    exact ticks_complete n _ hh rfl

/-- The premise of its other half: every finite prefix of a sequence completes. -/
theorem witness_firstSteps (n : Nat) :
    ∃ t, firstSteps Config.ex (fun _ => (op (.tick false false)).present) n = .next t :=
  ticks_complete n _ rfl (by simp)

end Sys2Proof.Tests
end

/-! Proofs of the statements about the scope: a step, runs of encoded operations, and infinite runs (00_scope.md). -/

namespace Sys2Proof.Machine

open Sys2Proof Sys2Proof.Laws

/-! ## Encoded operations decode -/

/-- An encoded operation lies in its own row of the opcode map (R112). -/
theorem encode_inRow (i : Instr) : EncodesInRow.Statement i := by
  cases i with
  | tick ra rb => exact EncodesInRow.tick ra rb
  | iter => exact EncodesInRow.iter
  | dlgret req disp => exact EncodesInRow.dlgret req disp
  | fade en => exact EncodesInRow.fade en
  | bset lvl => exact EncodesInRow.bset lvl
  | rdmode => exact EncodesInRow.rdmode
  | rdbrt => exact EncodesInRow.rdbrt
  | rddisp => exact EncodesInRow.rddisp
  | reset => exact EncodesInRow.reset

/-- The operand fields of an encoded operation hold its operands (R101, R107). -/
theorem operands_encode (i : Instr) : i.opcode.operands (encode i) ((encodeData i).getD 0#32) = i := by
  cases i with
  | tick ra rb => revert ra rb; decide
  | dlgret req disp =>
    have hreq : ExitReq.ofCode ((encode (.dlgret req 0#32)).extractLsb' 0 2) = req := by cases req <;> decide
    exact congrArg (Instr.dlgret · disp) hreq
  | fade en => revert en; decide
  | bset lvl => revert lvl; decide
  | iter | rdmode | rdbrt | rddisp | reset => rfl

/-- An operation presented by an agent of its row decodes to itself (R119). -/
theorem decode_present {p : Performed} (hwf : p.wf = true) : p.present.decode = .ok p.instr := by
  obtain ⟨hrow, hmask⟩ := encode_inRow p.instr
  have hagent : p.agent ∈ p.instr.opcode.agents := of_decide_eq_true hwf
  simp [Presented.decode, Performed.present, decode, hrow, hmask, hagent, operands_encode]

/-! ## Performing a presented operation -/

theorem perform_of_decode {p : Presented} {i : Instr} (hd : p.decode = .ok i) (s : State) :
    perform p s = exec i s := by
  simp [perform, hd]

theorem perform_of_error {p : Presented} {e : DecodeError} (hd : p.decode = .error e) (s : State) :
    perform p s = .refused (refusalOf e) := by
  simp [perform, hd]

theorem step_of_stream_cons {s : State} {p : Presented} {rest : List Presented} (hh : s.halted = false)
    (hs : s.stream = p :: rest) : step s = perform p (s.take p rest) := by
  simp [step, stepOn, hh, hs]

/-- Whether a state is halted is read off the two marks. -/
theorem halted_congr {s t : State} (hf : t.faultMark = s.faultMark) (hr : t.refusalMark = s.refusalMark) :
    t.halted = s.halted := by
  simp [State.halted, hf, hr]

/-- A completed operation leaves the stream and halts nothing. -/
theorem perform_frame {p : Presented} {s t : State} (h : perform p s = .next t) :
    t.halted = s.halted ∧ t.stream = s.stream := by
  cases hd : p.decode with
  | error e => rw [perform_of_error hd] at h; cases h
  | ok i =>
    rw [perform_of_decode hd] at h
    obtain ⟨-, hfault, hrefusal, -, hstream⟩ := exec_frame h
    exact ⟨halted_congr hfault hrefusal, hstream⟩

/-- An outcome with the stream of its next state replaced. -/
def setStream (rest : List Presented) : Host.Outcome State Fault Refusal → Host.Outcome State Fault Refusal
  | .next t => .next { t with stream := rest }
  | .fault r => .fault r
  | .refused r => .refused r

/-- What performing an operation does does not depend on the operations still to be presented. -/
theorem perform_with_stream (p : Presented) (s : State) (rest : List Presented) :
    perform p { s with stream := rest } = setStream rest (perform p s) := by
  cases hd : p.decode with
  | error e => rw [perform_of_error hd, perform_of_error hd, setStream]
  | ok i =>
    rw [perform_of_decode hd, perform_of_decode hd, exec_with_stream]
    cases exec i s <;> rfl

/-! ## The parameters and the invariants along a run -/

theorem step_keeps_cfg {s t : State} (h : step s = .next t) : t.cfg = s.cfg :=
  step_keeps (P := fun u => u.cfg = s.cfg) (fun _ _ _ hu he => (exec_frame he).1.trans hu) (fun _ _ _ hu => hu) rfl h

end Sys2Proof.Machine

namespace Sys2Proof.Safety

open Sys2Proof Sys2Proof.Machine

theorem ButtonInv.reset (c : Config) : ButtonInv c ButtonRegs.reset := Nat.succ_pos _

/-- I-D1: the counter starts again at the commit or stays below the window (R210). -/
theorem ButtonInv.sample {c : Config} {b : ButtonRegs} (raw : Bool) : ButtonInv c (b.sample c raw) := by
  have hpos : 0 < c.dbWindow := Nat.succ_pos _
  unfold ButtonInv
  rcases b.sample_cases c raw with ⟨-, h⟩ | ⟨-, -, h⟩ | ⟨-, hlt, h⟩ <;> rw [h]
  · exact hpos
  · exact hpos
  · exact (Nat.mod_le _ _).trans_lt hlt

theorem BrightInv.reset : BrightInv BrightRegs.reset := by constructor <;> decide

/-- What the brightness invariants say of a level and a direction alone (I-B1 to I-B3). -/
structure LevelInv (l : BitVec 4) (dir : FadeDir) : Prop where
  low : 5 ≤ l.toNat
  high : l.toNat ≤ 10
  upBelowMax : dir = .up → l.toNat < 10
  downAboveMin : dir = .down → 5 < l.toNat

theorem BrightInv.levelInv {b : BrightRegs} (h : BrightInv b) : LevelInv b.level b.fadeDir :=
  ⟨h.levelLow, h.levelHigh, h.upBelowMax, h.downAboveMin⟩

/-- The direction set on reaching a legal level points away from a bound (R182). -/
theorem LevelInv.afterLevel {l : BitVec 4} (dir : FadeDir) (hlow : 5 ≤ l.toNat) (hhigh : l.toNat ≤ 10) :
    LevelInv l (dir.afterLevel l) := by
  by_cases hmax : l.toNat = 10
  · constructor <;> simp [FadeDir.afterLevel, hmax]
  · by_cases hmin : l.toNat = 5
    · constructor <;> simp [FadeDir.afterLevel, hmin]
    · exact ⟨hlow, hhigh, fun _ => by omega, fun _ => by omega⟩

/-- A fade step is clamped to the bounds (R182). -/
theorem fadeStep_bounds (dir : FadeDir) {l : BitVec 4} (hlow : 5 ≤ l.toNat) (hhigh : l.toNat ≤ 10) :
    5 ≤ (fadeStep dir l).toNat ∧ (fadeStep dir l).toNat ≤ 10 := by
  cases dir <;> simp [fadeStep, levelMin, levelMax] <;> omega

/-- PERIOD_END keeps the invariants of the brightness registers (R182). -/
theorem BrightInv.periodEnd {b : BrightRegs} (h : BrightInv b) : BrightInv b.periodEnd := by
  obtain ⟨hstep, -, -, -, hvalid⟩ := b.periodEnd_frame
  have hlevel : LevelInv b.periodEnd.level b.periodEnd.fadeDir := by
    unfold BrightRegs.periodEnd
    split
    next hreq =>
      obtain ⟨hlow, hhigh⟩ := h.requestLegal hreq
      exact .afterLevel _ hlow hhigh
    next =>
      split
      · obtain ⟨hlow, hhigh⟩ := fadeStep_bounds b.fadeDir h.levelLow h.levelHigh
        exact .afterLevel _ hlow hhigh
      · exact h.levelInv
  exact ⟨hlevel.low, hlevel.high, hlevel.upBelowMax, hlevel.downAboveMin, hstep ▸ h.stepLegal, by simp [hvalid]⟩

theorem BrightInv.pwmTick {b : BrightRegs} (h : BrightInv b) : BrightInv b.pwmTick := by
  by_cases hstep : b.step.toNat = 9
  · rw [BrightRegs.pwmTick_of_step_nine hstep]
    exact BrightInv.periodEnd { h with stepLegal := Nat.zero_le 9 }
  · rw [BrightRegs.pwmTick_of_step_ne_nine hstep]
    have hnext : b.step.toNat + 1 ≤ 9 := by have := h.stepLegal; omega
    exact { h with stepLegal := (Nat.mod_le _ _).trans hnext }

theorem levelInRange_bounds {l : BitVec 4} (h : levelInRange l = true) : 5 ≤ l.toNat ∧ l.toNat ≤ 10 := by
  simpa [levelInRange] using h

theorem ModeInv.reset : ModeInv ModeRegs.reset := by constructor <;> decide

/-- I-M2 and I-M3 over the pass of an ITER: only BallGame, of the modes a chord leaves, is saved in HIST, and a pass
that ends in Paused dispatches nothing (R135, R137). -/
theorem ModeInv.iterPass {s : State} (h : ModeInv s.fsm) (hp : s.fsm.pending = false) : ModeInv s.iterPass.fsm := by
  constructor
  · rw [State.iterPass_hist, State.modeAfterChord_hist]
    split
    · exact .inr rfl
    · exact h.histIsDisplayMode
  · rw [State.iterPass_mode]
    intro hpend hpaused
    rw [State.iterPass_of_paused hpaused] at hpend
    simp [State.modeAfterChord_pending, hp] at hpend

theorem ModeInv.reply {r : ModeRegs} (h : ModeInv r) (req : ExitReq) (disp : DataWord) :
    ModeInv (r.reply req disp) := by
  rcases r.reply_cases req disp with ⟨-, -, hr⟩ | ⟨-, -, hr⟩ | ⟨-, -, hr⟩ <;> rw [hr] <;>
    exact ⟨h.histIsDisplayMode, nofun⟩

theorem invariants_resetWith (c : Config) : Invariants (State.resetWith c) :=
  ⟨.reset c, .reset c, .reset, .reset⟩

/-- Every operation keeps the invariants of R55. -/
theorem exec_keeps_invariants {i : Instr} {s t : State} (h : Invariants s) (he : exec i s = .next t) :
    Invariants t := by
  rcases exec_next_cases he with ⟨ra, rb, -, rfl⟩ | ⟨-, hp, rfl⟩ | ⟨req, disp, -, -, rfl⟩ | ⟨_, -, rfl⟩ |
    ⟨lvl, -, hlvl, rfl⟩ | ⟨_, -, -, rfl⟩ | ⟨-, v, rfl⟩ | ⟨-, rfl⟩
  · exact ⟨.sample ra, .sample rb, h.bright.pwmTick, h.mode⟩
  · refine ⟨?_, ?_, ?_, h.mode.iterPass hp⟩
    · simpa [ButtonInv] using h.buttonA
    · simpa [ButtonInv] using h.buttonB
    · simpa using h.bright
  · exact { h with mode := h.mode.reply req disp }
  · exact { h with bright := { h.bright with } }
  · exact { h with bright := { h.bright with requestLegal := fun _ => levelInRange_bounds hlvl } }
  · exact h
  · exact { h with }
  · exact ⟨.reset s.cfg, .reset s.cfg, .reset, .reset⟩

theorem step_keeps_invariants {s t : State} (h : Invariants s) (hst : step s = .next t) : Invariants t :=
  step_keeps (fun _ _ _ hu he => exec_keeps_invariants hu he) (fun _ _ _ hu => { hu with }) h hst

/-! ## Runs of presented operations -/

/-- One presented operation, with the stream left as it is. -/
def presentOne (p : Presented) (s : State) : Host.Outcome State Fault Refusal := perform p (s.take p s.stream)

/-- Presented operations one after the other, stopping at the first fault or refusal: `performAll` with the decoder. -/
def presentAll : List Presented → State → Host.Outcome State Fault Refusal
  | [], s => .next s
  | p :: ps, s =>
    match presentOne p s with
    | .next t => presentAll ps t
    | .fault r => .fault r
    | .refused r => .refused r

theorem presentOne_frame {p : Presented} {s t : State} (h : presentOne p s = .next t) :
    t.halted = s.halted ∧ t.stream = s.stream := perform_frame (s := s.take p s.stream) h

/-- A presented operation of an agent of its row is the performed one. -/
theorem presentOne_present {p : Performed} (hwf : p.wf = true) (s : State) :
    presentOne p.present s = performOne p s :=
  perform_of_decode (decode_present hwf) _

theorem presentAll_map_present {l : List Performed} (hwf : ∀ p ∈ l, p.wf = true) (s : State) :
    presentAll (l.map Performed.present) s = performAll l s := by
  induction l generalizing s with
  | nil => rfl
  | cons p ps ih =>
    rw [List.map_cons, presentAll, presentOne_present (hwf p List.mem_cons_self), performAll]
    cases performOne p s with
    | next t => exact ih (fun q hq => hwf q (List.mem_cons_of_mem p hq)) t
    | fault r => rfl
    | refused r => rfl

/-- Running the machine over operations put before its stream is presenting them one after the other. -/
theorem runSteps_append_stream (ps : List Presented) {s : State} (hh : s.halted = false) :
    runSteps ps.length { s with stream := ps ++ s.stream } = presentAll ps s := by
  induction ps generalizing s with
  | nil => rfl
  | cons p ps ih =>
    have hstep : step { s with stream := p :: ps ++ s.stream } =
        setStream (ps ++ s.stream) (presentOne p s) :=
      (step_of_stream_cons (s := { s with stream := p :: ps ++ s.stream }) hh rfl).trans
        (perform_with_stream p (s.take p s.stream) (ps ++ s.stream))
    rw [List.length_cons, runSteps, hstep, presentAll]
    cases hp : presentOne p s with
    | next t =>
      obtain ⟨hhalt, hstream⟩ := presentOne_frame hp
      rw [← hstream]
      exact ih (hhalt.trans hh)
    | fault r => rfl
    | refused r => rfl

/-- Completed runs leave the stream and halt nothing. -/
theorem presentAll_frame {ps : List Presented} {s t : State} (h : presentAll ps s = .next t) :
    t.halted = s.halted ∧ t.stream = s.stream := by
  induction ps generalizing s with
  | nil => cases h; exact ⟨rfl, rfl⟩
  | cons p ps ih =>
    rw [presentAll] at h
    cases hp : presentOne p s with
    | next u =>
      rw [hp] at h
      obtain ⟨hhalt, hstream⟩ := presentOne_frame hp
      obtain ⟨hhalt', hstream'⟩ := ih h
      exact ⟨hhalt'.trans hhalt, hstream'.trans hstream⟩
    | fault r => rw [hp] at h; cases h
    | refused r => rw [hp] at h; cases h

/-- A run with one more operation completes when the run does and then the operation. -/
theorem presentAll_concat_eq_next {ps : List Presented} {p : Presented} {s t : State} :
    presentAll (ps ++ [p]) s = .next t ↔ ∃ u, presentAll ps s = .next u ∧ presentOne p u = .next t := by
  induction ps generalizing s with
  | nil => cases hp : presentOne p s <;> simp [presentAll, hp]
  | cons q qs ih =>
    rw [List.cons_append, presentAll, presentAll]
    cases presentOne q s with
    | next u => exact ih
    | fault r => simp
    | refused r => simp

/-! ## The finite prefixes of an infinite run -/

/-- A step with one operation presented is the operation, where nothing else is presented. -/
theorem stepWith_eq_presentOne {s : State} (hh : s.halted = false) (hs : s.stream = []) (p : Presented) :
    stepWith p s = presentOne p s := by
  rw [presentOne, hs]
  exact step_of_stream_cons hh rfl

theorem firstSteps_eq_presentAll (c : Config) (ops : Nat → Presented) (n : Nat) :
    firstSteps c ops n = presentAll ((List.range n).map ops) (State.resetWith c) := by
  simpa [firstSteps] using runSteps_append_stream ((List.range n).map ops) (s := State.resetWith c) rfl

/-- One step more: the first `n + 1` steps complete when the first `n` do and then the machine's own step. -/
theorem firstSteps_succ_eq_next {c : Config} {ops : Nat → Presented} {n : Nat} {t : State} :
    firstSteps c ops (n + 1) = .next t ↔ ∃ s, firstSteps c ops n = .next s ∧ stepWith (ops n) s = .next t := by
  simp only [firstSteps_eq_presentAll, List.range_succ, List.map_append, List.map_cons, List.map_nil,
    presentAll_concat_eq_next]
  refine exists_congr fun s => and_congr_right fun h => ?_
  obtain ⟨hhalt, hstream⟩ := presentAll_frame h
  rw [stepWith_eq_presentOne hhalt hstream]

theorem InfiniteRun.firstSteps_eq {c : Config} {ops : Nat → Presented} {states : Nat → State}
    (run : InfiniteRun c ops states) (n : Nat) : firstSteps c ops n = .next (states n) := by
  induction n with
  | zero => rw [run.start]; rfl
  | succ n ih => exact firstSteps_succ_eq_next.mpr ⟨states n, ih, run.next n⟩

theorem firstSteps_invariants {c : Config} {ops : Nat → Presented} {n : Nat} {t : State}
    (h : firstSteps c ops n = .next t) : Invariants t :=
  run_keeps (fun _ _ => step_keeps_invariants) n { State.resetWith c with stream := (List.range n).map ops } t
    { invariants_resetWith c with } h

/-- States that the finite prefixes of a sequence of operations lead to form an infinite run. -/
theorem InfiniteRun.of_firstSteps {c : Config} {ops : Nat → Presented} {states : Nat → State}
    (h : ∀ n, firstSteps c ops n = .next (states n)) : InfiniteRun c ops states where
  start := Host.Outcome.next.inj (h 0).symm
  next n := by
    obtain ⟨s, hs, hstep⟩ := firstSteps_succ_eq_next.mp (h (n + 1))
    cases hs.symm.trans (h n)
    exact hstep

/-! ## The statements -/

/-- Settles O17: the run is the presented operations one after the other, and each decodes to the performed one. -/
theorem runOfEncodedStreamPerformsTheOperations : Obligations.RunOfEncodedStreamPerformsTheOperations := by
  intro l s rest hh hwf
  have hrun := runSteps_append_stream (l.map Performed.present) (s := { s with stream := rest }) hh
  rw [List.length_map] at hrun
  exact hrun.trans (presentAll_map_present hwf _)

/-- Settles O18: every step keeps the parameters. -/
theorem parametersAreFixedForTheRun : Obligations.ParametersAreFixedForTheRun := fun n s t h =>
  run_keeps (P := fun u => u.cfg = s.cfg) (fun _ _ hu hst => (step_keeps_cfg hst).trans hu) n s t rfl h

/-- Settles O58, by induction on the number of steps; the states of the run that exists are the ends of the finite
prefixes. -/
theorem infiniteRunsAreTheirFinitePrefixes : Obligations.InfiniteRunsAreTheirFinitePrefixes := by
  intro c ops
  constructor
  · intro states run n
    exact ⟨run.firstSteps_eq n, firstSteps_invariants (run.firstSteps_eq n)⟩
  · intro h
    choose states hstates using h
    exact ⟨states, .of_firstSteps hstates⟩

/-- Settles O11, by the law of a step at an operation that decodes. -/
theorem stepPerformsTheDecodedOperation : Obligations.StepPerformsTheDecodedOperation := by
  intro s p rest i hh hs hd
  exact step_of_decode hh hs hd

end Sys2Proof.Safety

/-! Proofs of the statements about the state: the invariants, the history, the latch, the delegate port and TICK's frame
(10_state.md). -/

namespace Sys2Proof.Machine

open Sys2Proof

/-! ## What TICK leaves of the brightness registers -/

/-- TICK never writes the fade enable or the requested level (R182, R184, R185). -/
theorem BrightRegs.pwmTick_frame (b : BrightRegs) : b.pwmTick.fadeEn = b.fadeEn ∧ b.pwmTick.req = b.req := by
  by_cases h : b.step.toNat = 9
  · rw [pwmTick_of_step_nine h]
    obtain ⟨-, hen, hreq, -, -⟩ := periodEnd_frame { b with out := pwmOn b.step b.level, step := 0#4 }
    exact ⟨hen, hreq⟩
  · rw [pwmTick_of_step_ne_nine h]
    exact ⟨rfl, rfl⟩

/-- Between period ends the level, its direction and the mailbox stand (R180). -/
theorem BrightRegs.pwmTick_keeps_level {b : BrightRegs} (h : b.step.toNat ≠ 9) :
    b.pwmTick.level = b.level ∧ b.pwmTick.fadeDir = b.fadeDir ∧ b.pwmTick.reqValid = b.reqValid := by
  rw [pwmTick_of_step_ne_nine h]
  exact ⟨rfl, rfl, rfl⟩

/-! ## The level a reader sees -/

/-- The level stands in the low four bits of RDBRT's result (R109). -/
theorem brightResult_toNat_mod (b : BrightRegs) : (brightResult b).toNat % 16 = b.level.toNat := by
  have hlow : (brightResult b).setWidth 4 = b.level := by
    rw [brightResult, BitVec.setWidth_setWidth_of_le _ (by decide), BitVec.setWidth_append_eq_right]
  have := congrArg BitVec.toNat hlow
  rwa [BitVec.toNat_setWidth] at this

/-! ## The history -/

theorem ModeRegs.reply_hist (r : ModeRegs) (req : ExitReq) (disp : DataWord) : (r.reply req disp).hist = r.hist := by
  rcases r.reply_cases req disp with ⟨-, -, hr⟩ | ⟨-, -, hr⟩ | ⟨-, -, hr⟩ <;> rw [hr]

/-- Every completed operation keeps HIST or leaves one of the two modes ENTER saves there (R135, R270). -/
theorem exec_hist_cases {i : Instr} {s t : State} (h : exec i s = .next t) :
    t.fsm.hist = s.fsm.hist ∨ t.fsm.hist = .fullBinary ∨ t.fsm.hist = .ballGame := by
  rcases exec_next_cases h with ⟨_, _, -, rfl⟩ | ⟨-, -, rfl⟩ | ⟨req, disp, -, -, rfl⟩ | ⟨_, -, rfl⟩ |
    ⟨_, -, -, rfl⟩ | ⟨_, -, -, rfl⟩ | ⟨-, _, rfl⟩ | ⟨-, rfl⟩
  · exact .inl rfl
  · rw [State.iterPass_hist, State.modeAfterChord_hist]
    split
    · exact .inr (.inr rfl)
    · exact .inl rfl
  · exact .inl (s.fsm.reply_hist req disp)
  · exact .inl rfl
  · exact .inl rfl
  · exact .inl rfl
  · exact .inl rfl
  · exact .inr (.inl rfl)

/-! ## The pass of an ITER while the latch is set -/

theorem State.fires_of_latch {s : State} (h : s.fsm.latch = true) : s.fires = false := by
  simp [State.fires, chordFires, h]

/-- While the latch is set a dispatched record delivers no edge (R133). -/
theorem State.dispatchRecord_edges_of_latch {s : State} (h : s.fsm.latch = true) :
    (dispatchRecord s.takeSnapshot.fsm s.modeAfterChord s.snapshot).edgeA = .none ∧
      (dispatchRecord s.takeSnapshot.fsm s.modeAfterChord s.snapshot).edgeB = .none := by
  rw [State.dispatchRecord_eq]
  simp [h]

end Sys2Proof.Machine

namespace Sys2Proof.Safety

open Sys2Proof Sys2Proof.Machine

/-! ## The delegate port -/

theorem PendingMatchesDispatch.of_not_pending {s : State} (h : s.fsm.pending = false) : PendingMatchesDispatch s :=
  fun hp => absurd hp (by simp [h])

/-- The pass of an ITER emits a record of the mode it ends in, or leaves nothing outstanding (R137, R138). -/
theorem PendingMatchesDispatch.iterPass {s : State} (hp : s.fsm.pending = false) :
    PendingMatchesDispatch s.iterPass := by
  by_cases hm : s.modeAfterChord.mode = .paused
  · rw [State.iterPass_of_paused hm]
    exact .of_not_pending (s.modeAfterChord_pending.trans hp)
  · rw [State.iterPass_of_not_paused hm]
    exact fun _ => ⟨_, _, rfl, rfl⟩

theorem exec_keeps_pendingMatchesDispatch {i : Instr} {s t : State} (h : PendingMatchesDispatch s)
    (he : exec i s = .next t) : PendingMatchesDispatch t := by
  rcases exec_next_cases he with ⟨_, _, -, rfl⟩ | ⟨-, hp, rfl⟩ | ⟨req, disp, -, -, rfl⟩ | ⟨_, -, rfl⟩ |
    ⟨_, -, -, rfl⟩ | ⟨_, -, -, rfl⟩ | ⟨-, _, rfl⟩ | ⟨-, rfl⟩
  · exact h
  · exact .iterPass hp
  · obtain ⟨-, hpending, -⟩ := s.fsm.reply_frame req disp
    exact .of_not_pending hpending
  · exact h
  · exact h
  · exact h
  · exact h
  · exact .of_not_pending rfl

/-! ## A held chord -/

/-- From `s` to `t` the mode has stood, the latch is set, and every record emitted in between delivers no edge. -/
structure HeldSince (s t : State) : Prop where
  mode : t.fsm.mode = s.fsm.mode
  latch : t.fsm.latch = true
  emitted : ∃ new, t.emitted = new ++ s.emitted ∧ ∀ d ∈ new, d.edgeA = .none ∧ d.edgeB = .none

/-- Nothing emitted, MODE kept and the latch kept set. -/
theorem HeldSince.of_eq {s t : State} (hm : t.fsm.mode = s.fsm.mode) (hl : t.fsm.latch = true)
    (he : t.emitted = s.emitted) : HeldSince s t :=
  ⟨hm, hl, [], he, nofun⟩

theorem HeldSince.trans {s t u : State} (h₁ : HeldSince s t) (h₂ : HeldSince t u) : HeldSince s u := by
  obtain ⟨new₁, he₁, hnone₁⟩ := h₁.emitted
  obtain ⟨new₂, he₂, hnone₂⟩ := h₂.emitted
  refine ⟨h₂.mode.trans h₁.mode, h₂.latch, new₂ ++ new₁, ?_, ?_⟩
  · rw [he₂, he₁, List.append_assoc]
  · intro d hd
    exact (List.mem_append.mp hd).elim (hnone₂ d) (hnone₁ d)

/-- While a button is stably pressed and the latch is set, a pass fires no chord, keeps the latch and masks the edges
(R133). -/
theorem HeldSince.iterPass {s : State} (hl : s.fsm.latch = true)
    (hb : s.btnA.stable = true ∨ s.btnB.stable = true) : HeldSince s s.iterPass := by
  have hmode : s.modeAfterChord.mode = s.fsm.mode := by
    simp [State.modeAfterChord_mode, State.fires_of_latch hl]
  have hlatch : s.modeAfterChord.latch = true := by
    simpa [State.modeAfterChord_latch, State.fires_of_latch hl, hl] using hb
  by_cases hp : s.modeAfterChord.mode = .paused
  · rw [State.iterPass_of_paused hp]
    exact .of_eq hmode hlatch rfl
  · rw [State.iterPass_of_not_paused hp]
    refine ⟨hmode, hlatch, [_], rfl, fun d hd => ?_⟩
    rw [List.mem_singleton.mp hd]
    exact State.dispatchRecord_edges_of_latch hl

/-- A reply that requests no exit changes neither MODE nor the latch (R141). -/
theorem HeldSince.reply_none {s : State} (hl : s.fsm.latch = true) (disp : DataWord) :
    HeldSince s { s with fsm := s.fsm.reply .none disp } :=
  .of_eq rfl hl rfl

/-- Every completed operation but RESET and an exit request holds the mode and the latch while the latch is set and
a button is stably pressed. -/
theorem exec_heldSince {i : Instr} {s t : State} (hl : s.fsm.latch = true)
    (hb : s.btnA.stable = true ∨ s.btnB.stable = true) (hreset : i ≠ .reset)
    (hreq : ∀ req disp, i = .dlgret req disp → req = .none) (he : exec i s = .next t) : HeldSince s t := by
  rcases exec_next_cases he with ⟨_, _, -, rfl⟩ | ⟨-, -, rfl⟩ | ⟨req, disp, hi, -, rfl⟩ | ⟨_, -, rfl⟩ |
    ⟨_, -, -, rfl⟩ | ⟨_, -, -, rfl⟩ | ⟨-, _, rfl⟩ | ⟨hi, -⟩
  · exact .of_eq rfl hl rfl
  · exact .iterPass hl hb
  · rw [hreq req disp hi]
    exact .reply_none hl disp
  · exact .of_eq rfl hl rfl
  · exact .of_eq rfl hl rfl
  · exact .of_eq rfl hl rfl
  · exact .of_eq rfl hl rfl
  · exact absurd hi hreset

theorem along_head {P : State → Prop} : ∀ {l : List Performed} {s : State}, Along P l s → P s
  | [], _, h => h
  | _ :: _, _, h => h.1

theorem along_tail {P : State → Prop} {p : Performed} {l : List Performed} {s u : State} (h : Along P (p :: l) s)
    (hu : performOne p s = .next u) : Along P l u := by
  have hrest := h.2
  rwa [hu] at hrest

/-- Over a run without RESET and without an exit request, in whose every state a button is stably pressed, the mode and
the latch are held. -/
theorem performAll_heldSince {l : List Performed} {s t : State} (hl : s.fsm.latch = true) (hreset : NoReset l)
    (hreq : ∀ p ∈ l, ∀ req disp, p.instr = .dlgret req disp → req = .none)
    (hb : Along (fun u => u.btnA.stable = true ∨ u.btnB.stable = true) l s) (h : performAll l s = .next t) :
    HeldSince s t := by
  induction l generalizing s with
  | nil => cases h; exact .of_eq rfl hl rfl
  | cons p ps ih =>
    obtain ⟨u, hu, ht⟩ := performAll_cons h
    obtain ⟨hresetp, hresetps⟩ := List.forall_mem_cons.mp hreset
    obtain ⟨hreqp, hreqps⟩ := List.forall_mem_cons.mp hreq
    have hone : HeldSince (withInputs s p) u := exec_heldSince hl (along_head hb) hresetp hreqp hu
    have hfirst : HeldSince s u := { hone with }
    exact hfirst.trans (ih hfirst.latch hresetps hreqps (along_tail hb hu) ht)

/-! ## The invariants along a run from reset -/

theorem performOne_keeps_invariants {p : Performed} {s t : State} (h : Invariants s) (hp : performOne p s = .next t) :
    Invariants t :=
  exec_keeps_invariants (s := withInputs s p) { h with } hp

/-! ## The statements -/

/-- Settles O37, by induction on the run: a set latch lets no chord fire and masks every edge, and a pressed button
keeps it set. -/
theorem heldChordDoesNotCycleAgain : Obligations.HeldChordDoesNotCycleAgain := by
  intro l s t hl hreset hreq hb h
  obtain ⟨hmode, hlatch, hemitted⟩ := performAll_heldSince hl hreset hreq hb h
  exact ⟨hmode, hlatch, hemitted⟩

/-- Settles O56: every operation keeps the invariants, so every step does. -/
theorem stepKeepsTheInvariants : Obligations.StepKeepsTheInvariants := fun _ _ => step_keeps_invariants

/-- Settles O57: the reset state meets the invariants and every performed operation keeps them. -/
theorem reachableStatesSatisfyTheInvariants : Obligations.ReachableStatesSatisfyTheInvariants := fun c _ _ h =>
  performAll_keeps (fun _ _ _ _ => performOne_keeps_invariants) (invariants_resetWith c) h

/-- Settles O22, by TICK's end state and the frame of its PWM part. -/
theorem tickCountsAndWritesNoOtherRegister : Obligations.TickCountsAndWritesNoOtherRegister := by
  intro ra rb s
  obtain ⟨hen, hreq⟩ := s.brt.pwmTick_frame
  exact ⟨_, exec_tick ra rb s, BitVec.toNat_add s.tcnt 1#32, rfl, hen, hreq, BrightRegs.pwmTick_keeps_level⟩

/-- Settles O43: no operation puts another mode than FullBinary or BallGame into HIST. -/
theorem historyIsNeverAnEditingMode : Obligations.HistoryIsNeverAnEditingMode := by
  intro s t hs h
  refine step_keeps (P := fun u => u.fsm.hist = .fullBinary ∨ u.fsm.hist = .ballGame) ?_ (fun _ _ _ hu => hu) hs h
  intro i u v hu he
  rcases exec_hist_cases he with hkept | hsaved
  · rwa [hkept]
  · exact hsaved

/-- Settles O45: an ITER that dispatches puts its own record first, and no operation changes MODE with a dispatch left
outstanding. -/
theorem pendingDispatchIsForTheActiveMode : Obligations.PendingDispatchIsForTheActiveMode := fun _ _ =>
  step_keeps (fun _ _ _ => exec_keeps_pendingMatchesDispatch) (fun _ _ _ hu => hu)

/-- Settles O50: the result's low four bits are the level, which the invariants bound. -/
theorem readersSeeALegalLevel : Obligations.ReadersSeeALegalLevel := by
  intro s h
  refine ⟨_, _, exec_rdbrt s, rfl, ?_⟩
  rw [brightResult_toNat_mod]
  exact ⟨h.bright.levelLow, h.bright.levelHigh⟩

end Sys2Proof.Safety

/-! Proofs of the statements about the registers' owners and about Paused (20_memory.md). -/

namespace Sys2Proof.Machine

/-- A level request that is valid after a TICK was valid before it: TICK only takes requests (R182). -/
theorem BrightRegs.reqValid_of_pwmTick {b : BrightRegs} (h : b.pwmTick.reqValid = true) : b.reqValid = true := by
  by_cases hstep : b.step.toNat = 9
  · rw [pwmTick_of_step_nine hstep] at h
    obtain ⟨-, -, -, -, htaken⟩ := periodEnd_frame { b with out := pwmOn b.step b.level, step := 0#4 }
    exact absurd h (by simp [htaken])
  · obtain ⟨-, -, hvalid⟩ := pwmTick_keeps_level hstep
    exact hvalid ▸ h

end Sys2Proof.Machine

namespace Sys2Proof.Safety

open Sys2Proof Sys2Proof.Machine

/-! ## Who writes which group of registers (R87) -/

/-- But for TICK and RESET, no operation writes the tick count, and only ITER writes a button's registers: it consumes both
edges. -/
theorem exec_buttons_cases {i : Instr} {s t : State} (h : exec i s = .next t) (hreset : i ≠ .reset)
    (htick : isTick i = false) :
    t.tcnt = s.tcnt ∧
      ((i = .iter ∧ t.btnA = s.btnA.consume ∧ t.btnB = s.btnB.consume) ∨
        (i ≠ .iter ∧ t.btnA = s.btnA ∧ t.btnB = s.btnB)) := by
  rcases exec_next_cases h with ⟨_, _, rfl, -⟩ | ⟨rfl, -, rfl⟩ | ⟨_, _, rfl, -, rfl⟩ | ⟨_, rfl, rfl⟩ |
    ⟨_, rfl, -, rfl⟩ | ⟨_, rfl, -, rfl⟩ | ⟨hread, _, rfl⟩ | ⟨hi, -⟩
  · cases htick
  · exact ⟨s.iterPass_tcnt, .inl ⟨rfl, s.iterPass_btnA, s.iterPass_btnB⟩⟩
  · exact ⟨rfl, .inr ⟨nofun, rfl, rfl⟩⟩
  · exact ⟨rfl, .inr ⟨nofun, rfl, rfl⟩⟩
  · exact ⟨rfl, .inr ⟨nofun, rfl, rfl⟩⟩
  · exact ⟨rfl, .inr ⟨nofun, rfl, rfl⟩⟩
  · exact ⟨rfl, .inr ⟨by rintro rfl; simp at hread, rfl, rfl⟩⟩
  · exact absurd hi hreset

/-- But for RESET, the brightness registers are written by TICK, by FADE (the enable) and by BSET (the mailbox). -/
theorem exec_brt_cases {i : Instr} {s t : State} (h : exec i s = .next t) (hreset : i ≠ .reset) :
    t.brt = s.brt ∨ (isTick i = true ∧ t.brt = s.brt.pwmTick) ∨
      (∃ en, i = .fade en ∧ t.brt = { s.brt with fadeEn := en }) ∨
      ∃ lvl, i = .bset lvl ∧ t.brt = { s.brt with req := lvl, reqValid := true } := by
  rcases exec_next_cases h with ⟨_, _, rfl, rfl⟩ | ⟨-, -, rfl⟩ | ⟨_, _, -, -, rfl⟩ | ⟨en, hi, rfl⟩ |
    ⟨lvl, hi, -, rfl⟩ | ⟨_, -, -, rfl⟩ | ⟨-, _, rfl⟩ | ⟨hi, -⟩
  · exact .inr (.inl ⟨rfl, rfl⟩)
  · exact .inl s.iterPass_brt
  · exact .inl rfl
  · exact .inr (.inr (.inl ⟨en, hi, rfl⟩))
  · exact .inr (.inr (.inr ⟨lvl, hi, rfl⟩))
  · exact .inl rfl
  · exact .inl rfl
  · exact absurd hi hreset

/-- But for RESET, the mode machine's registers are written by ITER and DLGRET, and the delegate port by ITER. -/
theorem exec_fsm_cases {i : Instr} {s t : State} (h : exec i s = .next t) (hreset : i ≠ .reset) :
    (t.fsm = s.fsm ∧ t.emitted = s.emitted) ∨ (i = .iter ∧ t = s.iterPass) ∨
      ∃ req disp, i = .dlgret req disp ∧ s.fsm.pending = true ∧ t = { s with fsm := s.fsm.reply req disp } := by
  rcases exec_next_cases h with ⟨_, _, -, rfl⟩ | ⟨hi, -, ht⟩ | ⟨req, disp, hi, hp, ht⟩ | ⟨_, -, rfl⟩ |
    ⟨_, -, -, rfl⟩ | ⟨_, -, -, rfl⟩ | ⟨-, _, rfl⟩ | ⟨hi, -⟩
  · exact .inl ⟨rfl, rfl⟩
  · exact .inr (.inl ⟨hi, ht⟩)
  · exact .inr (.inr ⟨req, disp, hi, hp, ht⟩)
  · exact .inl ⟨rfl, rfl⟩
  · exact .inl ⟨rfl, rfl⟩
  · exact .inl ⟨rfl, rfl⟩
  · exact .inl ⟨rfl, rfl⟩
  · exact absurd hi hreset

/-! ## The writer of each register -/

section
variable {i : Instr} {s t : State} (h : exec i s = .next t) (hreset : i ≠ .reset)
include h hreset

/-- The tick-owned registers of the debouncer are TICK's alone. -/
theorem exec_keeps_stable_cnt (htick : isTick i = false) :
    t.btnA.stable = s.btnA.stable ∧ t.btnA.cnt = s.btnA.cnt ∧ t.btnB.stable = s.btnB.stable ∧
      t.btnB.cnt = s.btnB.cnt := by
  obtain ⟨-, ⟨-, hA, hB⟩ | ⟨-, hA, hB⟩⟩ := exec_buttons_cases h hreset htick <;> rw [hA, hB] <;> simp

/-- The tick-owned registers of the brightness controller are TICK's alone, and only TICK clears LVL_REQ_V. -/
theorem exec_keeps_pwm (htick : isTick i = false) :
    t.brt.step = s.brt.step ∧ t.brt.level = s.brt.level ∧ t.brt.fadeDir = s.brt.fadeDir ∧ t.brt.out = s.brt.out ∧
      (s.brt.reqValid = true → t.brt.reqValid = true) := by
  rcases exec_brt_cases h hreset with hb | ⟨hi, -⟩ | ⟨_, -, hb⟩ | ⟨_, -, hb⟩
  · simp [hb]
  · rw [htick] at hi; cases hi
  · simp [hb]
  · simp [hb]

/-- FADE_EN is FADE's alone. -/
theorem exec_keeps_fadeEn (hfade : ∀ en, i ≠ .fade en) : t.brt.fadeEn = s.brt.fadeEn := by
  rcases exec_brt_cases h hreset with hb | ⟨-, hb⟩ | ⟨en, hi, -⟩ | ⟨_, -, hb⟩
  · rw [hb]
  · rw [hb]; exact s.brt.pwmTick_frame.1
  · exact absurd hi (hfade en)
  · rw [hb]

/-- The mailbox is filled by BSET alone. -/
theorem exec_fills_no_mailbox (hbset : ∀ lvl, i ≠ .bset lvl) :
    t.brt.req = s.brt.req ∧ (t.brt.reqValid = true → s.brt.reqValid = true) := by
  rcases exec_brt_cases h hreset with hb | ⟨-, hb⟩ | ⟨_, -, hb⟩ | ⟨lvl, hi, -⟩
  · simp [hb]
  · rw [hb]; exact ⟨s.brt.pwmTick_frame.2, BrightRegs.reqValid_of_pwmTick⟩
  · simp [hb]
  · exact absurd hi (hbset lvl)

/-- The mode machine's registers are ITER's and DLGRET's. -/
theorem exec_keeps_fsm (hiter : i ≠ .iter) (hdlgret : ∀ req disp, i ≠ .dlgret req disp) : t.fsm = s.fsm := by
  rcases exec_fsm_cases h hreset with ⟨hfsm, -⟩ | ⟨hi, -⟩ | ⟨req, disp, hi, -⟩
  · exact hfsm
  · exact absurd hi hiter
  · exact absurd hi (hdlgret req disp)

/-- LATCH, LAST_TCNT and TSAMPLE are ITER's alone. -/
theorem exec_keeps_pass_registers (hiter : i ≠ .iter) :
    t.fsm.latch = s.fsm.latch ∧ t.fsm.lastTcnt = s.fsm.lastTcnt ∧ t.fsm.tsample = s.fsm.tsample := by
  rcases exec_fsm_cases h hreset with ⟨hfsm, -⟩ | ⟨hi, -⟩ | ⟨req, disp, -, -, rfl⟩
  · simp [hfsm]
  · exact absurd hi hiter
  · obtain ⟨-, -, hkept⟩ := s.fsm.reply_frame req disp
    exact hkept

/-- DISPLAY is DLGRET's alone. -/
theorem exec_keeps_display (hdlgret : ∀ req disp, i ≠ .dlgret req disp) : t.fsm.display = s.fsm.display := by
  rcases exec_fsm_cases h hreset with ⟨hfsm, -⟩ | ⟨-, rfl⟩ | ⟨req, disp, hi, -⟩
  · rw [hfsm]
  · exact s.iterPass_display
  · exact absurd hi (hdlgret req disp)

/-! ## Paused -/

/-- An operation from a state in Paused that ends in Paused writes neither DISPLAY nor the delegate port: nothing is
outstanding to reply to, and a pass that ends in Paused dispatches nothing (R137). -/
theorem exec_paused_frame (hinv : ModeInv s.fsm) (hs : s.fsm.mode = .paused) (ht : t.fsm.mode = .paused) :
    t.fsm.display = s.fsm.display ∧ t.emitted = s.emitted := by
  rcases exec_fsm_cases h hreset with ⟨hfsm, hemitted⟩ | ⟨-, rfl⟩ | ⟨_, _, -, hpending, -⟩
  · exact ⟨by rw [hfsm], hemitted⟩
  · rw [State.iterPass_mode] at ht
    exact ⟨s.iterPass_display, by rw [State.iterPass_of_paused ht]⟩
  · exact absurd hs (hinv.pendingNotPaused hpending)

end

/-! ## The statements -/

/-- Settles O36, by induction on the run: the invariants hold in its every state, so no reply can complete in Paused. -/
theorem pausedFreezesTheDisplay : Obligations.PausedFreezesTheDisplay := by
  intro l
  induction l with
  | nil => intro s t _ _ _ h; cases h; exact ⟨rfl, rfl⟩
  | cons p ps ih =>
    intro s t hinv hreset hpaused h
    obtain ⟨u, hu, ht⟩ := performAll_cons h
    obtain ⟨hresetp, hresetps⟩ := List.forall_mem_cons.mp hreset
    have hrest := along_tail hpaused hu
    obtain ⟨hdisplay, hemitted⟩ :=
      exec_paused_frame (s := withInputs s p) hu hresetp hinv.mode (along_head hpaused) (along_head hrest)
    obtain ⟨hdisplay', hemitted'⟩ := ih u t (performOne_keeps_invariants hinv hu) hresetps hrest ht
    exact ⟨hdisplay'.trans hdisplay, hemitted'.trans hemitted⟩

/-- Settles O55: each clause is the law of that register's writers. -/
theorem registersAreWrittenOnlyByTheirOwners : Obligations.RegistersAreWrittenOnlyByTheirOwners := by
  intro i s t h hreset
  refine ⟨fun htick => ?_, fun htick => ?_, exec_keeps_fsm h hreset, exec_keeps_pass_registers h hreset,
    exec_keeps_display h hreset, exec_keeps_fadeEn h hreset, exec_fills_no_mailbox h hreset⟩
  · obtain ⟨hstableA, hcntA, hstableB, hcntB⟩ := exec_keeps_stable_cnt h hreset htick
    obtain ⟨hstep, hlevel, hdir, hout, hvalid⟩ := exec_keeps_pwm h hreset htick
    obtain ⟨htcnt, hedges⟩ := exec_buttons_cases h hreset htick
    refine ⟨hstableA, hcntA, hstableB, hcntB, hstep, hlevel, hdir, hout, htcnt, hvalid, fun hiter => ?_, fun hiter => ?_⟩
    · rcases hedges with ⟨-, hA, hB⟩ | ⟨hi, -⟩
      · simp [hA, hB]
      · exact absurd hiter hi
    · rcases hedges with ⟨hi, -⟩ | ⟨-, hA, hB⟩
      · exact absurd hi hiter
      · simp [hA, hB]
  · have hfsm : t.fsm = s.fsm :=
      exec_keeps_fsm h hreset (by rintro rfl; cases htick) (by rintro _ _ rfl; cases htick)
    have hmailbox := exec_fills_no_mailbox h hreset (by rintro _ rfl; cases htick)
    exact ⟨hfsm, hmailbox⟩

end Sys2Proof.Safety

/-! Proofs of the statements about the encoding (30_encoding.md): the decoder and the encoder, the packed forms, the
assembler, and the operations whose operands and results it fixes. -/

namespace Sys2Proof

/-! ## The opcode field (R100, R118) -/

/-- The opcode field is the word's number divided by 4096. -/
theorem opField_eq_ofNat (w : OpWord) : opField w = BitVec.ofNat 4 (w.toNat / 4096) :=
  congrArg (BitVec.ofNat 4) (Nat.shiftRight_eq_div_pow w.toNat 12)

theorem opField_eq_three_iff (w : OpWord) : opField w = 0x3#4 ↔ w.toNat / 4096 = 3 := by
  have hw := w.isLt
  rw [opField_eq_ofNat, ← BitVec.toNat_inj, BitVec.toNat_ofNat]
  show w.toNat / 4096 % 16 = 3 ↔ w.toNat / 4096 = 3
  omega

/-- DLGRET's row is opcode 3. -/
theorem Opcode.ofBits_eq_dlgret_iff (b : BitVec 4) : Opcode.ofBits b = some .dlgret ↔ b = 0x3#4 := by
  revert b; decide

/-! ## The decoder, answer by answer (R119) -/

section
variable {a : Agent} {w : OpWord} {op : Opcode} (d : DataWord)

theorem decode_of_no_row (hrow : Opcode.ofBits (opField w) = none) : decode a w d = .error .reservedOpcode := by
  simp [decode, hrow]

theorem decode_of_nonzero_bits (hrow : Opcode.ofBits (opField w) = some op) (hbits : w &&& op.mask ≠ op.pattern) :
    decode a w d = .error .nonzeroReservedBits := by
  simp [decode, hrow, hbits]

theorem decode_of_wrong_agent (hrow : Opcode.ofBits (opField w) = some op) (hbits : w &&& op.mask = op.pattern)
    (hagent : a ∉ op.agents) : decode a w d = .error .wrongAgent := by
  simp [decode, hrow, hbits, hagent]

theorem decode_of_row (hrow : Opcode.ofBits (opField w) = some op) (hbits : w &&& op.mask = op.pattern)
    (hagent : a ∈ op.agents) : decode a w d = .ok (op.operands w d) := by
  simp [decode, hrow, hbits, hagent]

end

/-- What a word decodes to is the operation of its row, and every check of the row has passed. -/
theorem decode_eq_ok {a : Agent} {w : OpWord} {d : DataWord} {i : Instr} (h : decode a w d = .ok i) :
    ∃ op, Opcode.ofBits (opField w) = some op ∧ w &&& op.mask = op.pattern ∧ a ∈ op.agents ∧ i = op.operands w d := by
  cases hrow : Opcode.ofBits (opField w) with
  | none => rw [decode_of_no_row d hrow] at h; cases h
  | some op =>
    by_cases hbits : w &&& op.mask = op.pattern
    · by_cases hagent : a ∈ op.agents
      · rw [decode_of_row d hrow hbits hagent] at h
        cases h
        exact ⟨op, rfl, hbits, hagent, rfl⟩
      · rw [decode_of_wrong_agent d hrow hbits hagent] at h; cases h
    · rw [decode_of_nonzero_bits d hrow hbits] at h; cases h

/-- A presented word with a row is well formed when it passes the row's two checks. -/
theorem Presented.wf_iff_of_row {p : Presented} {op : Opcode} (hrow : Opcode.ofBits (opField p.word) = some op) :
    p.wf = true ↔ p.word &&& op.mask = op.pattern ∧ p.agent ∈ op.agents := by
  simp [Presented.wf, OpWord.opcodeDefined, OpWord.reservedBitsZero, OpWord.mayBePerformedBy, hrow]

theorem Presented.wf_of_no_row {p : Presented} (hrow : Opcode.ofBits (opField p.word) = none) : p.wf = false := by
  simp [Presented.wf, OpWord.opcodeDefined, hrow]

/-! ## The operand fields, read and written (R101, R102, R107) -/

@[simp] theorem Opcode.opcode_operands (op : Opcode) (w : OpWord) (d : DataWord) : (op.operands w d).opcode = op := by
  cases op <;> rfl

@[simp] theorem ExitReq.code_ofCode (c : BitVec 2) : (ExitReq.ofCode c).code = c := by
  revert c; decide

/-- Only DLGRET carries a data word (R103). -/
theorem encodeData_operands (op : Opcode) (w : OpWord) (d : DataWord) :
    encodeData (op.operands w d) = if op = .dlgret then some d else none := by
  cases op <;> rfl

/-- The fields of a row are the bits its mask leaves free: extracting the operands and putting them back in place keeps
exactly those bits of the word. -/
theorem Opcode.fieldBits_operands (op : Opcode) (w : OpWord) (d : DataWord) :
    (op.operands w d).fieldBits = w &&& ~~~op.mask := by
  cases op with
  | tick | dlgret | fade | bset =>
    apply BitVec.eq_of_getLsbD_eq
    intro k hk
    interval_cases k <;> simp [operands, Instr.fieldBits, mask]
  | iter | rdmode | rdbrt | rddisp | reset => simp [operands, Instr.fieldBits, mask]

/-- A word that matches its row is the encoding of the operation extracted from it. -/
theorem encode_operands {op : Opcode} {w : OpWord} (hbits : w &&& op.mask = op.pattern) (d : DataWord) :
    encode (op.operands w d) = w :=
  calc encode (op.operands w d)
      = (w &&& op.mask) ||| (w &&& ~~~op.mask) := by
        rw [encode, Opcode.opcode_operands, Opcode.fieldBits_operands, hbits]
    _ = w := by rw [← BitVec.and_or_distrib_left, BitVec.or_not_self, BitVec.and_allOnes]

end Sys2Proof

namespace Sys2Proof.Machine

/-! ## Packed forms (R109, R110) -/

/-- A packed form is the sum of its fields, each scaled by the width of those below it. -/
theorem toNat_append_eq_add {m n : Nat} (x : BitVec m) (y : BitVec n) :
    (x ++ y).toNat = x.toNat * 2 ^ n + y.toNat := by
  rw [BitVec.toNat_append, ← Nat.shiftLeft_add_eq_or_of_lt y.isLt, Nat.shiftLeft_eq]

theorem Dreq.hdr_toNat (d : Dreq) :
    d.hdr.toNat = d.mode.code.toNat + 8 * d.fresh.toNat + 16 * d.edgeA.code.toNat + 64 * d.edgeB.code.toNat +
      256 * d.level.toNat := by
  simp only [Dreq.hdr, toNat_append_eq_add, BitVec.toNat_ofBool, BitVec.toNat_ofNat]
  omega

theorem brightResult_toNat (b : BrightRegs) :
    (brightResult b).toNat = b.level.toNat + 16 * b.fadeDir.code.toNat + 32 * b.fadeEn.toNat := by
  rw [brightResult, BitVec.toNat_setWidth_of_le (by decide)]
  simp only [toNat_append_eq_add, BitVec.toNat_ofBool]
  omega

theorem modeResult_toNat (r : ModeRegs) : (modeResult r).toNat = r.mode.code.toNat :=
  BitVec.toNat_setWidth_of_le (by decide)

/-! ## Levels a BSET takes (R185) -/

theorem levelInRange_of_bounds {l : BitVec 4} (h : 5 ≤ l.toNat ∧ l.toNat ≤ 10) : levelInRange l = true := by
  simpa [levelInRange] using h

theorem exec_bset_of_legal {lvl : BitVec 4} (h : levelInRange lvl = true) (s : State) :
    exec (.bset lvl) s = .next { s with brt := { s.brt with req := lvl, reqValid := true } } := by
  rw [exec_bset, if_pos h]

theorem exec_bset_of_illegal {lvl : BitVec 4} (h : ¬ levelInRange lvl = true) (s : State) :
    exec (.bset lvl) s = .next s := by
  rw [exec_bset, if_neg h]

/-! ## What a pass of the main loop emits (R121, R130, R138) -/

/-- An ITER emits a record exactly when it leaves PENDING set, which is what PASS looks at. -/
theorem iterEmits_iff (s : State) :
    s.iterEmits = true ↔ ∃ d t, exec .iter s = .next t ∧ t.emitted = d :: s.emitted := by
  rw [iterEmits_eq]
  cases hp : s.fsm.pending with
  | true => simp [exec_iter_of_pending hp]
  | false =>
    rw [exec_iter_of_not_pending hp]
    by_cases hm : s.modeAfterChord.mode = .paused
    · simp [State.iterPass_of_paused hm, hm]
    · simp [State.iterPass_of_not_paused hm, hm]

theorem expand_pass_of_emits {s : State} (h : s.iterEmits = true) (req : ExitReq) (disp : DataWord) :
    AsmOp.expand s (.pass req disp) = [.iter, .dlgret req disp] := by
  simp [AsmOp.expand, h]

theorem expand_pass_of_not_emits {s : State} (h : ¬ s.iterEmits = true) (req : ExitReq) (disp : DataWord) :
    AsmOp.expand s (.pass req disp) = [.iter] := by
  simp [AsmOp.expand, h]

/-! ## The tokens of a line (R120) -/

/-- A character that ends no token. -/
def inWord (c : Char) : Bool := c != ';' && c != ' ' && c != ','

/-- A word of a line: at least one character, and none that ends a token. -/
def isWord (t : List Char) : Bool := !t.isEmpty && t.all inWord

theorem tokens_cons {c : Char} (hc : inWord c = true) (cur cs : List Char) :
    tokens cur (c :: cs) = tokens (c :: cur) cs := by
  obtain ⟨⟨hsemi, hblank⟩, hcomma⟩ : (c ≠ ';' ∧ c ≠ ' ') ∧ c ≠ ',' := by simpa [inWord] using hc
  rw [tokens, if_neg hsemi, if_neg hblank, if_neg hcomma]

/-- Characters that end no token are gathered into the current one. -/
theorem tokens_append {t : List Char} (ht : t.all inWord = true) (cur rest : List Char) :
    tokens cur (t ++ rest) = tokens (t.reverse ++ cur) rest := by
  induction t generalizing cur with
  | nil => rfl
  | cons c cs ih =>
    obtain ⟨hc, hcs⟩ : inWord c = true ∧ cs.all inWord = true := by simpa using ht
    rw [List.cons_append, tokens_cons hc, ih hcs, List.reverse_cons, List.append_assoc]
    rfl

section
variable {t : List Char} (ht : isWord t = true)
include ht

/-- A word read to its end is the finished token. -/
theorem tokens_word_append (rest : List Char) : tokens [] (t ++ rest) = tokens t.reverse rest := by
  obtain ⟨-, hall⟩ := (Bool.and_eq_true _ _).mp ht
  rw [tokens_append hall, List.append_nil]

theorem pushToken_reverse (rest : List (List Char)) : pushToken t.reverse rest = t :: rest := by
  obtain ⟨hne, -⟩ := (Bool.and_eq_true _ _).mp ht
  simpa [pushToken] using hne

theorem tokens_word : tokens [] t = [t] :=
  calc tokens [] t = tokens t.reverse [] := by simpa using tokens_word_append ht []
    _ = [t] := pushToken_reverse ht []

theorem tokens_word_blank (rest : List Char) : tokens [] (t ++ ' ' :: rest) = t :: tokens [] rest :=
  (tokens_word_append ht _).trans (pushToken_reverse ht _)

theorem tokens_word_comma (rest : List Char) :
    tokens [] (t ++ ',' :: ' ' :: rest) = t :: [','] :: tokens [] rest :=
  (tokens_word_append ht _).trans (pushToken_reverse ht _)

end

/-- The tokens of a mnemonic with one operand. -/
theorem tokens_op1 {m a : List Char} (hm : isWord m = true) (ha : isWord a = true) :
    tokens [] (m ++ [' '] ++ a) = [m, a] := by
  rw [List.append_assoc]
  exact (tokens_word_blank hm a).trans (congrArg (m :: ·) (tokens_word ha))

/-- The tokens of a mnemonic with two operands. -/
theorem tokens_op2 {m a b : List Char} (hm : isWord m = true) (ha : isWord a = true) (hb : isWord b = true) :
    tokens [] (m ++ [' '] ++ a ++ [',', ' '] ++ b) = [m, a, [','], b] :=
  calc tokens [] (m ++ [' '] ++ a ++ [',', ' '] ++ b)
      = tokens [] (m ++ ' ' :: (a ++ ',' :: ' ' :: b)) := by simp
    _ = [m, a, [','], b] := by rw [tokens_word_blank hm, tokens_word_comma ha, tokens_word hb]

/-! ## Operands, written and read back -/

theorem parseBit_renderBit (b : Bool) : parseBit (renderBit b) = some b := by
  revert b; decide

theorem parseLvl_renderLvl (l : BitVec 4) : parseLvl (renderLvl l) = some l := by
  revert l; decide

theorem parseReq_renderReq (req : ExitReq) : parseReq (renderReq req) = some req := by
  cases req <;> decide

theorem hexValue_hexChar (v : BitVec 4) : hexValue (hexChar v) = some v.toNat := by
  revert v; decide

/-- Reading one digit of a data word: the value read goes from the bits above the digit to those and its own. -/
theorem digitsValue_digit (d : DataWord) (k : Nat) (cs : List Char) :
    digitsValue 16 hexValue (d.toNat >>> (k + 4)) (hexChar (d.extractLsb' k 4) :: cs) =
      digitsValue 16 hexValue (d.toNat >>> k) cs := by
  have hvalue : 16 * (d.toNat >>> (k + 4)) + d.toNat >>> k % 16 = d.toNat >>> k := by
    rw [Nat.shiftRight_add, Nat.shiftRight_eq_div_pow _ 4]
    exact Nat.div_add_mod (d.toNat >>> k) 16
  rw [digitsValue, hexValue_hexChar, BitVec.extractLsb'_toNat]
  exact congrArg (digitsValue 16 hexValue · cs) hvalue

/-- The eight digits of a data word are its value in base 16. -/
theorem digitsValue_renderHex32 (d : DataWord) :
    digitsValue 16 hexValue 0 (hexDigits (renderHex32 d)) = some d.toNat := by
  have hstart : d.toNat >>> (28 + 4) = 0 := Nat.shiftRight_eq_zero _ _ d.isLt
  rw [← hstart, renderHex32, hexDigits, digitsValue_digit d 28, digitsValue_digit d 24, digitsValue_digit d 20,
    digitsValue_digit d 16, digitsValue_digit d 12, digitsValue_digit d 8, digitsValue_digit d 4,
    digitsValue_digit d 0, digitsValue, Nat.shiftRight_zero]

theorem parseHex32_renderHex32 (d : DataWord) : parseHex32 (renderHex32 d) = some d := by
  have hdigits : (hexDigits (renderHex32 d)).isEmpty = false := rfl
  simp [parseHex32, hdigits, digitsValue_renderHex32, d.isLt]

theorem isWord_renderBit (b : Bool) : isWord (renderBit b) = true := by
  revert b; decide

theorem isWord_renderLvl (l : BitVec 4) : isWord (renderLvl l) = true := by
  revert l; decide

theorem isWord_renderReq (req : ExitReq) : isWord (renderReq req) = true := by
  cases req <;> decide

theorem inWord_hexChar (v : BitVec 4) : inWord (hexChar v) = true := by
  revert v; decide

theorem isWord_renderHex32 (d : DataWord) : isWord (renderHex32 d) = true := by
  simp only [isWord, renderHex32, List.all_cons, inWord_hexChar]
  rfl

/-! ## Operations, written and read back -/

/-- The mnemonic of an operation, the first token of its text. -/
def mnemonic : Opcode → List Char
  | .tick => "TICK".toList
  | .iter => "ITER".toList
  | .dlgret => "DLGRET".toList
  | .fade => "FADE".toList
  | .bset => "BSET".toList
  | .rdmode => "RDMODE".toList
  | .rdbrt => "RDBRT".toList
  | .rddisp => "RDDISP".toList
  | .reset => "RESET".toList

theorem isWord_mnemonic (op : Opcode) : isWord (mnemonic op) = true := by
  cases op <;> decide

/-- No mnemonic is an agent's token. -/
theorem parseAgent_mnemonic (op : Opcode) : parseAgent (mnemonic op) = none := by
  cases op <;> decide

/-- The tokens of an operand list. -/
def operandTokens : Instr → List (List Char)
  | .tick ra rb => [renderBit ra, [','], renderBit rb]
  | .dlgret req disp => [renderReq req, [','], renderHex32 disp]
  | .fade en => [renderBit en]
  | .bset lvl => [renderLvl lvl]
  | .iter | .rdmode | .rdbrt | .rddisp | .reset => []

/-- The text of an operation is its mnemonic and its operands. -/
theorem tokens_render (i : Instr) : tokens [] (Instr.render i) = mnemonic i.opcode :: operandTokens i := by
  have hm := isWord_mnemonic i.opcode
  cases i with
  | tick ra rb => exact tokens_op2 hm (isWord_renderBit ra) (isWord_renderBit rb)
  | dlgret req disp => exact tokens_op2 hm (isWord_renderReq req) (isWord_renderHex32 disp)
  | fade en => exact tokens_op1 hm (isWord_renderBit en)
  | bset lvl => exact tokens_op1 hm (isWord_renderLvl lvl)
  | iter | rdmode | rdbrt | rddisp | reset => exact tokens_word hm

section
variable {a b : List Char}

theorem parseOp2_tick {ra rb : Bool} (ha : parseBit a = some ra) (hb : parseBit b = some rb) :
    parseOp2 "TICK".toList a b = some (.op (.tick ra rb)) := by
  rw [parseOp2, if_pos rfl, ha, hb]

theorem parseOp2_dlgret {req : ExitReq} {disp : DataWord} (ha : parseReq a = some req) (hb : parseHex32 b = some disp) :
    parseOp2 "DLGRET".toList a b = some (.op (.dlgret req disp)) := by
  rw [parseOp2, if_neg (by decide), if_pos rfl, ha, hb]

theorem parseOp1_fade {en : Bool} (ha : parseBit a = some en) :
    parseOp1 "FADE".toList a = some (.op (.fade en)) := by
  rw [parseOp1, if_pos rfl, ha, Option.map_some]

theorem parseOp1_bset {lvl : BitVec 4} (ha : parseLvl a = some lvl) :
    parseOp1 "BSET".toList a = some (.op (.bset lvl)) := by
  rw [parseOp1, if_neg (by decide), if_pos rfl, ha, Option.map_some]

end

/-- The tokens of an operation read back as it. -/
theorem parseOp_tokens (i : Instr) : parseOp (mnemonic i.opcode :: operandTokens i) = some (.op i) := by
  cases i with
  | tick ra rb => exact parseOp2_tick (parseBit_renderBit ra) (parseBit_renderBit rb)
  | dlgret req disp => exact parseOp2_dlgret (parseReq_renderReq req) (parseHex32_renderHex32 disp)
  | fade en => exact parseOp1_fade (parseBit_renderBit en)
  | bset lvl => exact parseOp1_bset (parseLvl_renderLvl lvl)
  | iter | rdmode | rdbrt | rddisp | reset => rfl

/-! ## Lines, written and read back -/

/-- The token that names an agent at the start of a line. -/
def agentToken : Agent → List Char
  | .tick => "T:".toList
  | .main => "M:".toList
  | .reader => "R:".toList
  | .env => "E:".toList

theorem isWord_agentToken (a : Agent) : isWord (agentToken a) = true := by
  cases a <;> decide

theorem parseAgent_agentToken (a : Agent) : parseAgent (agentToken a) = some a := by
  cases a <;> decide

theorem renderAgent_some (a : Agent) : renderAgent (some a) = agentToken a ++ [' '] := by
  cases a <;> decide

theorem parseLine_render (i : Instr) : parseLine (Instr.render i) = some { agent := none, op := .op i } := by
  simp [parseLine, tokens_render, parseAgent_mnemonic, parseOp_tokens]

theorem parseLine_agentToken_render (a : Agent) (i : Instr) :
    parseLine (agentToken a ++ ' ' :: Instr.render i) = some { agent := some a, op := .op i } := by
  simp [parseLine, tokens_word_blank (isWord_agentToken a), tokens_render, parseAgent_agentToken, parseOp_tokens]

end Sys2Proof.Machine

namespace Sys2Proof.Safety

open Sys2Proof Sys2Proof.Machine

/-! ## The opcode map as numbers (R112, R113) -/

theorem ofBits_of_reserved {n : Nat} (h : n ∈ reservedOpcodes) : Opcode.ofBits (BitVec.ofNat 4 n) = none := by
  revert n; decide

/-- A row written out as numbers is the decoder's row. -/
theorem opcodeMap_row {row : MapRow} (h : row ∈ opcodeMap) :
    Opcode.ofBits (BitVec.ofNat 4 row.op) = some row.opcode ∧ row.opcode.mask = row.mask ∧
      row.opcode.pattern = row.pattern ∧ row.opcode.agents = row.agents := by
  revert row; decide

/-! ## A pass of the main loop (R121) -/

@[simp] theorem withInputs_fsm (s : State) (p : Performed) : (withInputs s p).fsm = s.fsm := rfl

/-- Whether an ITER emits does not depend on who performs it and what the time source answers. -/
theorem iterEmits_withInputs (s : State) (p : Performed) : (withInputs s p).iterEmits = s.iterEmits := by
  rw [iterEmits_eq, iterEmits_eq, State.modeAfterChord_mode, State.modeAfterChord_mode]
  rfl

/-- A pass whose ITER emits: the reply is to its record, and completes it. -/
theorem performAll_pass_of_emits {s : State} (h : s.iterEmits = true) (req : ExitReq) (disp : DataWord)
    (time : TimeSample) :
    ∃ t, performAll [⟨.main, .iter, time⟩, ⟨.main, .dlgret req disp, time⟩] s = .next t ∧ t.fsm.pending = false ∧
      (∃ d, t.emitted = d :: s.emitted ∧ d.time = time) ∧ t.fsm.display = disp := by
  rw [← iterEmits_withInputs s ⟨.main, .iter, time⟩, iterEmits_eq] at h
  obtain ⟨hp, hm⟩ : s.fsm.pending = false ∧ (withInputs s ⟨.main, .iter, time⟩).modeAfterChord.mode ≠ .paused := by
    simpa using h
  have hiter : performOne ⟨.main, .iter, time⟩ s = .next _ := exec_iter_of_not_pending hp
  rw [State.iterPass_of_not_paused hm] at hiter
  obtain ⟨hdisplay, hpending, -⟩ := ModeRegs.reply_frame _ req disp
  exact ⟨_, (performAll_cons_of_next hiter).trans (performAll_cons_of_next (exec_dlgret_of_pending req disp rfl)),
    hpending, ⟨_, rfl, rfl⟩, hdisplay⟩

/-- A pass that ends in Paused: the ITER alone. -/
theorem performAll_pass_of_paused {s : State} (hp : s.fsm.pending = false) (h : ¬ s.iterEmits = true)
    (time : TimeSample) :
    ∃ t, performAll [⟨.main, .iter, time⟩] s = .next t ∧ t.fsm.pending = false ∧ t.emitted = s.emitted ∧
      t.fsm.display = s.fsm.display ∧ t.fsm.mode = .paused := by
  rw [← iterEmits_withInputs s ⟨.main, .iter, time⟩, iterEmits_eq] at h
  have hm : (withInputs s ⟨.main, .iter, time⟩).modeAfterChord.mode = .paused := by
    by_contra hm
    exact h (by simpa [hm] using hp)
  have hiter : performOne ⟨.main, .iter, time⟩ s = .next _ := exec_iter_of_not_pending hp
  rw [State.iterPass_of_paused hm] at hiter
  exact ⟨_, performAll_cons_of_next hiter, (State.modeAfterChord_pending _).trans hp, rfl,
    State.modeAfterChord_display _, hm⟩

/-! ## The statements -/

/-- Settles O4: an encoded operation lies in its own row, so the agent decides, and the operands read back. -/
theorem decodeInvertsEncode : Obligations.DecodeInvertsEncode := by
  intro p
  cases hagent : p.instr.mayBePerformedBy p.agent with
  | true => exact decode_present hagent
  | false =>
    obtain ⟨hrow, hbits⟩ := encode_inRow p.instr
    exact decode_of_wrong_agent _ hrow hbits (of_decide_eq_false hagent)

/-- Settles O1: each clause is one answer of the decoder, at the row the numbers write out. -/
theorem decodeFollowsTheProcedure : Obligations.DecodeFollowsTheProcedure := by
  intro a w d
  constructor
  · intro hreserved
    exact decode_of_no_row d (opField_eq_ofNat w ▸ ofBits_of_reserved hreserved)
  · intro row hmem hop
    obtain ⟨hrow, hmask, hpattern, hagents⟩ := opcodeMap_row hmem
    rw [hop, ← opField_eq_ofNat] at hrow
    rw [← hmask, ← hpattern, ← hagents]
    exact ⟨decode_of_nonzero_bits d hrow, decode_of_wrong_agent d hrow,
      fun hbits hagent => ⟨_, decode_of_row d hrow hbits hagent, Opcode.opcode_operands ..⟩⟩

/-- Settles O3, row by row: what decodes is the operation extracted from the word. -/
theorem decodedOperandsAreTheWordsBits : Obligations.DecodedOperandsAreTheWordsBits := by
  intro a w d i h
  obtain ⟨op, -, -, -, rfl⟩ := decode_eq_ok h
  cases op with
  | tick => exact ⟨rfl, rfl⟩
  | dlgret =>
    refine ⟨rfl, ?_⟩
    have hreq : w.toNat % 4 = (w.extractLsb' 0 2).toNat := by simp
    rw [hreq]
    generalize w.extractLsb' 0 2 = c
    revert c; decide
  | fade => rfl
  | bset => simp [Opcode.operands]
  | iter | rdmode | rdbrt | rddisp | reset => trivial

/-- Settles O5: the word matches its row, and DLGRET's row is opcode 3. -/
theorem encodeInvertsDecode : Obligations.EncodeInvertsDecode := by
  intro a w d i h
  obtain ⟨op, hrow, hbits, -, rfl⟩ := decode_eq_ok h
  have hdlgret : op = .dlgret ↔ w.toNat / 4096 = 3 := by
    rw [← opField_eq_three_iff, ← Opcode.ofBits_eq_dlgret_iff, hrow, Option.some_inj]
  exact ⟨encode_operands hbits d, by simp only [encodeData_operands, hdlgret]⟩

/-- Settles O6: the decoder's checks are those of well-formedness. -/
theorem decoderAcceptsExactlyTheWellFormed : Obligations.DecoderAcceptsExactlyTheWellFormed := by
  intro p
  constructor
  · rintro ⟨i, h⟩
    obtain ⟨op, hrow, hbits, hagent, -⟩ := decode_eq_ok h
    exact (Presented.wf_iff_of_row hrow).mpr ⟨hbits, hagent⟩
  · intro hwf
    cases hrow : Opcode.ofBits (opField p.word) with
    | none => rw [Presented.wf_of_no_row hrow] at hwf; cases hwf
    | some op =>
      obtain ⟨hbits, hagent⟩ := (Presented.wf_iff_of_row hrow).mp hwf
      exact ⟨_, decode_of_row p.data hrow hbits hagent⟩

/-- Settles O10: the line's tokens are the agent's, the mnemonic and the operands, and each reads back. -/
theorem assemblerReadsBackWhatItWrites : Obligations.AssemblerReadsBackWhatItWrites := by
  intro a i
  cases a with
  | none => exact parseLine_render i
  | some a =>
    rw [renderLine, renderAgent_some, List.append_assoc]
    exact parseLine_agentToken_render a i

/-- Settles O34, by the registers after the chord in a pass that dispatches and in one that does not. -/
theorem iterDispatchesUnlessPaused : Obligations.IterDispatchesUnlessPaused := by
  intro s fire hp hfire
  obtain rfl : fire = s.fires := hfire
  refine ⟨_, exec_iter_of_not_pending hp, fun hm => ?_, fun hm => ?_⟩
  · rw [State.iterPass_mode] at hm
    rw [State.iterPass_of_not_paused hm, State.dispatchRecord_eq, State.modeAfterChord_fresh]
    exact ⟨rfl, rfl, rfl⟩
  · rw [State.iterPass_mode] at hm
    rw [State.iterPass_of_paused hm]
    exact ⟨s.modeAfterChord_fresh, s.modeAfterChord_pending.trans hp, rfl⟩

/-- Settles O41, by the pass that emits and the pass that ends in Paused. -/
theorem mainLoopPassCompletes : Obligations.MainLoopPassCompletes := by
  intro s req disp time hp
  by_cases h : s.iterEmits = true
  · rw [expand_pass_of_emits h]
    obtain ⟨t, ht, hpending, hemitted, hdisplay⟩ := performAll_pass_of_emits h req disp time
    exact ⟨t, ht, hpending, .inr ⟨hemitted, hdisplay⟩⟩
  · rw [expand_pass_of_not_emits h]
    obtain ⟨t, ht, hpending, hfrozen⟩ := performAll_pass_of_paused hp h time
    exact ⟨t, ht, hpending, .inl hfrozen⟩

/-- Settles O47: the levels BSET takes are 5 to 10. -/
theorem bsetFillsTheMailboxOrIsIgnored : Obligations.BsetFillsTheMailboxOrIsIgnored := by
  intro lvl s
  refine ⟨fun hlegal => exec_bset_of_legal (levelInRange_of_bounds hlegal) s, fun hillegal => ?_⟩
  refine exec_bset_of_illegal (fun hlegal => ?_) s
  obtain ⟨hlow, hhigh⟩ := levelInRange_bounds hlegal
  omega

/-- Settles O59: PASS holds a DLGRET when its ITER leaves PENDING set, and that is when it emits. -/
theorem passRepliesExactlyToADispatch : Obligations.PassRepliesExactlyToADispatch := by
  intro s req disp
  rw [← iterEmits_iff]
  exact ⟨fun h => expand_pass_of_emits h req disp, fun h => expand_pass_of_not_emits h req disp⟩

/-- Settles O2, by enumeration of the 16 opcode values. -/
theorem everyOpcodeIsReservedOrHasOneRow : Obligations.EveryOpcodeIsReservedOrHasOneRow := by
  unfold Obligations.EveryOpcodeIsReservedOrHasOneRow
  decide

/-- Settles O7: the length looks at the opcode field alone. -/
theorem lengthIsDecidedByTheOpcode : Obligations.LengthIsDecidedByTheOpcode := by
  intro w
  exact ⟨fun h => if_pos ((opField_eq_three_iff w).mpr h), fun h => if_neg (mt (opField_eq_three_iff w).mp h)⟩

/-- Settles O8, by running the decoder on each word. -/
theorem exampleWordsDecode : Obligations.ExampleWordsDecode :=
  ⟨rfl, rfl, rfl, rfl, rfl, rfl, rfl, rfl, rfl, rfl⟩

/-- Settles O9: the header is the sum of its scaled fields, and their codes are the numbers of R105 and R106. -/
theorem dispatchHeaderLayout : Obligations.DispatchHeaderLayout := by
  intro d
  rw [Dreq.hdr_toNat]
  congr 4
  · cases d.mode <;> rfl
  · cases d.fresh <;> rfl
  · cases d.edgeA <;> rfl
  · cases d.edgeB <;> rfl

/-- Settles O12: the refusal of a step is the decoder's error. -/
theorem stepRefusesTheUndecodable : Obligations.StepRefusesTheUndecodable := by
  intro s p rest e hh hs hd
  rw [step_of_stream_cons hh hs, perform_of_error hd]
  cases e <;> rfl

/-- Settles O49, by the numbers the packed results stand for. -/
theorem readsReturnTheirRegisters : Obligations.ReadsReturnTheirRegisters := by
  intro s
  refine ⟨⟨_, exec_rdmode s, ?_⟩, ⟨_, exec_rdbrt s, ?_⟩, exec_rddisp s⟩
  · rw [modeResult_toNat]
    cases s.fsm.mode <;> rfl
  · rw [brightResult_toNat]
    cases s.brt.fadeDir <;> cases s.brt.fadeEn <;> rfl

end Sys2Proof.Safety

/-! Proofs of the statements about the mode machine: the pass of an ITER, the reply of a delegate, the transitions of
MODE, and what neither the reads nor the mode machine affect (40_mode_fsm.md). -/

namespace Sys2Proof.Machine

open Sys2Proof

/-! ## The pass of an ITER (R130, R131, R132) -/

/-- A pass writes the buttons' edges, the mode machine's registers and the delegate port, and nothing else. -/
theorem State.iterPass_frame (s : State) :
    s.iterPass = { s with btnA := s.iterPass.btnA, btnB := s.iterPass.btnB, fsm := s.iterPass.fsm,
                          emitted := s.iterPass.emitted } := by
  by_cases hm : s.modeAfterChord.mode = .paused
  · rw [State.iterPass_of_paused hm]
  · rw [State.iterPass_of_not_paused hm]

/-- What a pass does does not depend on the results returned so far. -/
theorem State.iterPass_with_returned (s : State) (results : List ReadResult) :
    State.iterPass { s with returned := results } = { s.iterPass with returned := results } := by
  by_cases hm : s.modeAfterChord.mode = .paused
  · rw [State.iterPass_of_paused hm]
    exact State.iterPass_of_paused hm
  · rw [State.iterPass_of_not_paused hm]
    exact State.iterPass_of_not_paused hm

/-- A dispatching pass puts one record on the delegate port; its elapsed field is TCNT minus LAST_TCNT (R132). -/
theorem State.iterPass_emits_elapsed {s : State} (hm : s.iterPass.fsm.mode ≠ .paused) :
    ∃ d, s.iterPass.emitted = d :: s.emitted ∧ d.elapsed = s.tcnt - s.fsm.lastTcnt := by
  rw [State.iterPass_mode] at hm
  rw [State.iterPass_of_not_paused hm, State.dispatchRecord_eq]
  exact ⟨_, rfl, rfl⟩

/-- The chord fires when both buttons are stably pressed and the latch is clear (R133). -/
theorem State.fires_iff (s : State) :
    s.fires = true ↔ s.btnA.stable = true ∧ s.btnB.stable = true ∧ s.fsm.latch = false := by
  simp [State.fires, chordFires, and_assoc]

/-- An ITER that completes is a pass (R130). -/
theorem eq_iterPass_of_exec_iter {s t : State} (h : exec .iter s = .next t) : t = s.iterPass := by
  cases hp : s.fsm.pending
  · rw [exec_iter_of_not_pending hp] at h
    exact (Host.Outcome.next.inj h).symm
  · rw [exec_iter_of_pending hp] at h
    cases h

/-! ## The reply of a delegate (R140, R141, R142) -/

theorem ClockMode.isEditing_iff (m : ClockMode) : m.isEditing = true ↔ m = .manualSet ∨ m = .serialSet := by
  cases m <;> decide

theorem ModeRegs.reply_prev_of_editing {r : ModeRegs} (h : r.mode.isEditing = true) (disp : DataWord) :
    r.reply .prev disp = { r with display := disp, pending := false, mode := r.hist, fresh := true } := by
  rcases r.reply_cases .prev disp with ⟨-, -, hr⟩ | ⟨hreq, -⟩ | ⟨hprev, -⟩
  · exact hr
  · cases hreq
  · exact absurd ⟨rfl, h⟩ hprev

theorem ModeRegs.reply_full_of_ballGame {r : ModeRegs} (h : r.mode = .ballGame) (disp : DataWord) :
    r.reply .full disp = { r with display := disp, pending := false, mode := .fullBinary, fresh := true } := by
  rcases r.reply_cases .full disp with ⟨hreq, -⟩ | ⟨-, -, hr⟩ | ⟨-, hfull, -⟩
  · cases hreq
  · exact hr
  · exact absurd ⟨rfl, h⟩ hfull

/-- A request that is not valid in MODE only writes DISPLAY and completes the dispatch (R142). -/
theorem ModeRegs.reply_of_invalid {r : ModeRegs} {req : ExitReq} (hprev : ¬ (req = .prev ∧ r.mode.isEditing = true))
    (hfull : ¬ (req = .full ∧ r.mode = .ballGame)) (disp : DataWord) :
    r.reply req disp = { r with display := disp, pending := false } := by
  rcases r.reply_cases req disp with ⟨hreq, hm, -⟩ | ⟨hreq, hm, -⟩ | ⟨-, -, hr⟩
  · exact absurd ⟨hreq, hm⟩ hprev
  · exact absurd ⟨hreq, hm⟩ hfull
  · exact hr

/-- The word of a DLGRET is its row's pattern with the request's code in the two low bits (R107, R112). -/
theorem encode_dlgret (req : ExitReq) (disp : DataWord) :
    encode (.dlgret req disp) = BitVec.ofNat 16 (0x3000 + req.code.toNat) := by
  show encode (.dlgret req 0#32) = _
  cases req <;> decide

theorem exec_dlgret_of_invalid {s : State} {req : ExitReq} (hp : s.fsm.pending = true)
    (hprev : ¬ (req = .prev ∧ s.fsm.mode.isEditing = true)) (hfull : ¬ (req = .full ∧ s.fsm.mode = .ballGame))
    (disp : DataWord) :
    exec (.dlgret req disp) s = .next { s with fsm := { s.fsm with display := disp, pending := false } } := by
  rw [exec_dlgret_of_pending req disp hp, ModeRegs.reply_of_invalid hprev hfull]

/-! ## The transitions of MODE (R143) -/

/-- A pass that changes MODE fires the chord, to the next mode of the cycle. -/
theorem State.fires_of_iterPass_mode_ne {s : State} (h : s.iterPass.fsm.mode ≠ s.fsm.mode) :
    s.fires = true ∧ s.iterPass.fsm.mode = s.fsm.mode.next := by
  rw [State.iterPass_mode, State.modeAfterChord_mode] at h ⊢
  cases hf : s.fires <;> simp [hf] at h ⊢

/-- A reply that changes MODE performs a valid exit request. -/
theorem ModeRegs.reply_of_mode_ne {r : ModeRegs} {req : ExitReq} {disp : DataWord}
    (h : (r.reply req disp).mode ≠ r.mode) :
    (req = .prev ∧ r.mode.isEditing = true ∧ (r.reply req disp).mode = r.hist) ∨
      (req = .full ∧ r.mode = .ballGame ∧ (r.reply req disp).mode = .fullBinary) := by
  rcases r.reply_cases req disp with ⟨hreq, hm, hr⟩ | ⟨hreq, hm, hr⟩ | ⟨-, -, hr⟩
  · exact .inl ⟨hreq, hm, by rw [hr]⟩
  · exact .inr ⟨hreq, hm, by rw [hr]⟩
  · exact absurd (by rw [hr]) h

/-! ## What the reads leave behind (R147) -/

/-- What an operation that is no read does does not depend on the results returned so far. -/
theorem exec_with_returned {i : Instr} {s t : State} (h : exec i s = .next t) (hread : Safety.isRead i = false)
    (results : List ReadResult) :
    exec i { s with returned := results } = .next { t with returned := results } := by
  rcases exec_next_cases h with ⟨_, _, rfl, rfl⟩ | ⟨rfl, hp, rfl⟩ | ⟨req, disp, rfl, hp, rfl⟩ | ⟨_, rfl, rfl⟩ |
    ⟨_, rfl, hlvl, rfl⟩ | ⟨_, rfl, hlvl, rfl⟩ | ⟨hi, _, -⟩ | ⟨rfl, rfl⟩
  · exact exec_tick ..
  · rw [← State.iterPass_with_returned]
    exact exec_iter_of_not_pending hp
  · exact exec_dlgret_of_pending req disp hp
  · exact exec_fade ..
  · exact exec_bset_of_legal hlvl _
  · exact exec_bset_of_illegal (by simp [hlvl]) _
  · rcases hi with rfl | rfl | rfl <;> cases hread
  · exact exec_reset _

theorem exec_read {i : Instr} {s t : State} (h : exec i s = .next t) (hread : Safety.isRead i = true) :
    ∃ v, t = s.giveResult v := by
  cases i with
  | rdmode | rdbrt | rddisp => exact ⟨_, (Host.Outcome.next.inj h).symm⟩
  | tick | iter | dlgret | fade | bset | reset => cases hread

/-! ## What reaches the brightness registers (R188) -/

/-- The brightness registers after a completed operation, as a function of the operation and of those before it. -/
def BrightRegs.after (b : BrightRegs) : Instr → BrightRegs
  | .tick _ _ => b.pwmTick
  | .fade en => { b with fadeEn := en }
  | .bset lvl => if levelInRange lvl then { b with req := lvl, reqValid := true } else b
  | .reset => BrightRegs.reset
  | .iter | .dlgret _ _ | .rdmode | .rdbrt | .rddisp => b

theorem exec_brt_eq_after {i : Instr} {s t : State} (h : exec i s = .next t) : t.brt = s.brt.after i := by
  rcases exec_next_cases h with ⟨_, _, rfl, rfl⟩ | ⟨rfl, -, rfl⟩ | ⟨_, _, rfl, -, rfl⟩ | ⟨_, rfl, rfl⟩ |
    ⟨_, rfl, hlvl, rfl⟩ | ⟨_, rfl, hlvl, rfl⟩ | ⟨hi, _, rfl⟩ | ⟨rfl, rfl⟩
  · rfl
  · exact s.iterPass_brt
  · rfl
  · rfl
  · simp [BrightRegs.after, hlvl]
  · simp [BrightRegs.after, hlvl]
  · rcases hi with rfl | rfl | rfl <;> rfl
  · rfl

/-- An operation the Brightness Controller sees nothing of leaves its registers. -/
theorem BrightRegs.after_of_view_none {i : Instr} (h : Safety.brightView i = none) (b : BrightRegs) :
    b.after i = b := by
  cases i with
  | iter | dlgret | rdmode | rdbrt | rddisp => rfl
  | tick | fade | bset | reset => cases h

/-- What an operation does to the brightness registers is what the Brightness Controller sees of it: a TICK's raw levels
do not count. -/
theorem BrightRegs.after_of_view_some {i j : Instr} (h : Safety.brightView i = some j) (b : BrightRegs) :
    b.after i = b.after j := by
  cases i with
  | tick | fade | bset | reset => cases h; rfl
  | iter | dlgret | rdmode | rdbrt | rddisp => cases h

end Sys2Proof.Machine

namespace Sys2Proof.Safety

open Sys2Proof Sys2Proof.Machine

/-! ## Ticks between two passes (R132) -/

/-- TCNT counts the TICKs, and but for RESET no other operation writes it (R43). -/
theorem exec_tcnt {i : Instr} {s t : State} (h : exec i s = .next t) (hreset : i ≠ .reset) :
    t.tcnt = s.tcnt + BitVec.ofNat 32 (if isTick i then 1 else 0) := by
  cases htick : isTick i with
  | false =>
    obtain ⟨htcnt, -⟩ := exec_buttons_cases h hreset htick
    simp [htcnt]
  | true =>
    cases i with
    | tick ra rb => cases h; rfl
    | iter | dlgret | fade | bset | rdmode | rdbrt | rddisp | reset => cases htick

/-- Over a run without ITER and RESET, LAST_TCNT stands and TCNT advances by the number of TICKs. -/
theorem performAll_tcnt {l : List Performed} {s t : State} (hreset : NoReset l) (hiter : ∀ r ∈ l, r.instr ≠ .iter)
    (h : performAll l s = .next t) :
    t.fsm.lastTcnt = s.fsm.lastTcnt ∧ t.tcnt = s.tcnt + BitVec.ofNat 32 (countTicks l) := by
  induction l generalizing s with
  | nil => cases h; simp
  | cons p ps ih =>
    obtain ⟨u, hu, ht⟩ := performAll_cons h
    obtain ⟨hresetp, hresetps⟩ := List.forall_mem_cons.mp hreset
    obtain ⟨hiterp, hiterps⟩ := List.forall_mem_cons.mp hiter
    obtain ⟨hlast, htcnt⟩ := ih hresetps hiterps ht
    obtain ⟨-, hlastp, -⟩ := exec_keeps_pass_registers hu hresetp hiterp
    have htcntp : u.tcnt = s.tcnt + BitVec.ofNat 32 (if isTick p.instr then 1 else 0) :=
      exec_tcnt (s := withInputs s p) hu hresetp
    refine ⟨hlast.trans hlastp, ?_⟩
    rw [htcnt, htcntp, countTicks_cons, BitVec.add_assoc, ← BitVec.ofNat_add, Nat.add_comm]

/-! ## A run without its reads (R147) -/

/-- The two states differ at most in what reads and input ports leave behind. -/
def SameButReads (s u : State) : Prop :=
  ∃ input results, u = { s with input := input, returned := results }

theorem SameButReads.refl (s : State) : SameButReads s s := ⟨s.input, s.returned, rfl⟩

theorem SameButReads.sameRegisters {s u : State} (h : SameButReads s u) : SameRegisters s u := by
  obtain ⟨input, results, rfl⟩ := h
  exact ⟨rfl, rfl, rfl, rfl, rfl, rfl⟩

theorem SameButReads.emitted {s u : State} (h : SameButReads s u) : u.emitted = s.emitted := by
  obtain ⟨input, results, rfl⟩ := h
  rfl

/-- Taking a read out: the state before it serves for the one after it. -/
theorem SameButReads.skip_read {p : Performed} {s s' u : State} (h : SameButReads s u) (hread : isRead p.instr = true)
    (hp : performOne p s = .next s') : SameButReads s' u := by
  obtain ⟨input, results, rfl⟩ := h
  obtain ⟨v, rfl⟩ := exec_read hp hread
  exact ⟨input, results, rfl⟩

/-- Any other operation completes from both states alike. -/
theorem SameButReads.perform {p : Performed} {s s' u : State} (h : SameButReads s u) (hread : isRead p.instr = false)
    (hp : performOne p s = .next s') : ∃ u', performOne p u = .next u' ∧ SameButReads s' u' := by
  obtain ⟨input, results, rfl⟩ := h
  exact ⟨_, exec_with_returned hp hread results, s'.input, results, rfl⟩

theorem SameButReads.performAll_filter {l : List Performed} {s t u : State} (h : SameButReads s u)
    (hl : performAll l s = .next t) :
    ∃ v, performAll (l.filter fun p => !isRead p.instr) u = .next v ∧ SameButReads t v := by
  induction l generalizing s u with
  | nil => cases hl; exact ⟨u, rfl, h⟩
  | cons p ps ih =>
    obtain ⟨s', hp, hps⟩ := performAll_cons hl
    cases hread : isRead p.instr with
    | true =>
      rw [List.filter_cons_of_neg (by simp [hread])]
      exact ih (h.skip_read hread hp) hps
    | false =>
      obtain ⟨u', hu, h'⟩ := h.perform hread hp
      rw [List.filter_cons_of_pos (by simp [hread]), performAll_cons_of_next hu]
      exact ih h' hps

/-! ## The brightness registers over a run (R188) -/

/-- The brightness registers after a run are those before it under what the Brightness Controller sees of the run. -/
theorem performAll_brt {l : List Performed} {s t : State} (h : performAll l s = .next t) :
    t.brt = (l.filterMap fun p => brightView p.instr).foldl BrightRegs.after s.brt := by
  induction l generalizing s with
  | nil => cases h; rfl
  | cons p ps ih =>
    obtain ⟨u, hu, ht⟩ := performAll_cons h
    have hone : u.brt = s.brt.after p.instr := exec_brt_eq_after (s := withInputs s p) hu
    rw [ih ht, hone]
    cases hview : brightView p.instr with
    | none => simp [hview, BrightRegs.after_of_view_none hview]
    | some j => simp [hview, BrightRegs.after_of_view_some hview]

/-! ## Runs of TICKs, passes and replies that request no exit (R143) -/

/-- An operation of a run by chords: a TICK, an ITER or a reply that requests no exit, performed by its own agent. -/
def IsChordOp (p : Performed) : Prop :=
  p.wf = true ∧ ((∃ ra rb, p.instr = .tick ra rb) ∨ p.instr = .iter ∨ ∃ disp, p.instr = .dlgret .none disp)

/-- A completed run by chords leads from `s` to `t`. -/
def ChordReaches (s t : State) : Prop := ∃ l, (∀ p ∈ l, IsChordOp p) ∧ performAll l s = .next t

theorem ChordReaches.refl (s : State) : ChordReaches s s := ⟨[], nofun, rfl⟩

theorem ChordReaches.trans {s t u : State} (h₁ : ChordReaches s t) (h₂ : ChordReaches t u) : ChordReaches s u := by
  obtain ⟨l₁, hl₁, h₁⟩ := h₁
  obtain ⟨l₂, hl₂, h₂⟩ := h₂
  refine ⟨l₁ ++ l₂, fun p hp => (List.mem_append.mp hp).elim (hl₁ p) (hl₂ p), ?_⟩
  rw [performAll_append, h₁]
  exact h₂

theorem ChordReaches.single {p : Performed} {s t : State} (hp : IsChordOp p) (h : performOne p s = .next t) :
    ChordReaches s t :=
  ⟨[p], by simpa using hp, performAll_cons_of_next h⟩

/-- TICKs with the same raw levels sample each button again and again, and leave the mode machine. -/
theorem chordReaches_ticks (ra rb : Bool) (s : State) (n : Nat) :
    ∃ t, ChordReaches s t ∧ t.btnA = (ButtonRegs.sample s.cfg ra)^[n] s.btnA ∧
      t.btnB = (ButtonRegs.sample s.cfg rb)^[n] s.btnB ∧ t.cfg = s.cfg ∧ t.fsm = s.fsm := by
  induction n with
  | zero => exact ⟨s, .refl s, rfl, rfl, rfl, rfl⟩
  | succ n ih =>
    obtain ⟨t, hst, hA, hB, hcfg, hfsm⟩ := ih
    have htick : performOne ⟨.tick, .tick ra rb, TimeSample.atReset⟩ t = .next _ := exec_tick ..
    refine ⟨_, hst.trans (.single ⟨rfl, .inl ⟨ra, rb, rfl⟩⟩ htick), ?_, ?_, hcfg, hfsm⟩
    · rw [Function.iterate_succ_apply', ← hA, ← hcfg]; rfl
    · rw [Function.iterate_succ_apply', ← hB, ← hcfg]; rfl

/-- After `n` samples of one raw level the stable level is the sampled one or the counter has reached `n` (R210). -/
theorem iterate_sample_progress (c : Config) (raw : Bool) (b : ButtonRegs) (n : Nat) :
    ((ButtonRegs.sample c raw)^[n] b).stable = logicalPressed c raw ∨
      n ≤ ((ButtonRegs.sample c raw)^[n] b).cnt.toNat := by
  induction n with
  | zero => exact .inr (Nat.zero_le _)
  | succ n ih =>
    rw [Function.iterate_succ_apply']
    generalize (ButtonRegs.sample c raw)^[n] b = x at ih ⊢
    rcases x.sample_cases c raw with ⟨hp, hx⟩ | ⟨hp, -, hx⟩ | ⟨hp, hlt, hx⟩ <;> rw [hx]
    · exact .inl hp.symm
    · exact .inl hp.symm
    · rcases ih with ih | ih
      · simp [hp] at ih
      · have hwindow : c.dbWindow ≤ 65535 := c.windowLessOne.isLt
        right
        show n + 1 ≤ (x.cnt.toNat + 1) % 65536
        omega

/-- DB_WINDOW samples of one raw level make it the stable level, whatever the registers before them (R214). -/
theorem iterate_sample_dbWindow (c : Config) (raw : Bool) (b : ButtonRegs) :
    ((ButtonRegs.sample c raw)^[c.dbWindow] b).stable = logicalPressed c raw := by
  have hlt : ButtonInv c ((ButtonRegs.sample c raw)^[c.dbWindow] b) := by
    show ButtonInv c ((ButtonRegs.sample c raw)^[c.windowLessOne.val + 1] b)
    rw [Function.iterate_succ_apply']
    exact .sample raw
  exact (iterate_sample_progress c raw b c.dbWindow).resolve_right (Nat.not_le.mpr hlt)

theorem logicalPressed_rawLevel (c : Config) (v : Bool) : logicalPressed c (rawLevel c v) = v := by
  cases v <;> simp [logicalPressed, rawLevel]

/-- Holding both buttons at one level makes it both stable levels, and leaves the mode machine. -/
theorem chordReaches_hold (v : Bool) (s : State) :
    ∃ t, ChordReaches s t ∧ t.btnA.stable = v ∧ t.btnB.stable = v ∧ t.fsm = s.fsm := by
  obtain ⟨t, hst, hA, hB, -, hfsm⟩ := chordReaches_ticks (rawLevel s.cfg v) (rawLevel s.cfg v) s s.cfg.dbWindow
  refine ⟨t, hst, ?_, ?_, hfsm⟩
  · rw [hA, iterate_sample_dbWindow, logicalPressed_rawLevel]
  · rw [hB, iterate_sample_dbWindow, logicalPressed_rawLevel]

/-- The ITER of a run by chords. -/
def iterOp : Performed := ⟨.main, .iter, TimeSample.atReset⟩

/-- A main-loop pass with a reply to its dispatch, where there is one, that requests no exit: MODE and the latch are
the chord's (R133, R138). -/
theorem chordReaches_pass {s : State} (hp : s.fsm.pending = false) :
    ∃ t, ChordReaches s t ∧ t.fsm.pending = false ∧
      t.fsm.mode = (if s.fires then s.fsm.mode.next else s.fsm.mode) ∧
      t.fsm.latch = (s.fires || s.fsm.latch && (s.btnA.stable || s.btnB.stable)) := by
  have hiter : performOne iterOp s = .next (withInputs s iterOp).iterPass := exec_iter_of_not_pending hp
  have hreach : ChordReaches s (withInputs s iterOp).iterPass := .single ⟨rfl, .inr (.inl rfl)⟩ hiter
  have hmode := (withInputs s iterOp).modeAfterChord_mode
  have hlatch := (withInputs s iterOp).modeAfterChord_latch
  by_cases hm : (withInputs s iterOp).modeAfterChord.mode = .paused
  · rw [State.iterPass_of_paused hm] at hreach
    exact ⟨_, hreach, (State.modeAfterChord_pending _).trans hp, hmode, hlatch⟩
  · rw [State.iterPass_of_not_paused hm] at hreach
    have hreply := hreach.trans (.single (p := ⟨.main, .dlgret .none 0#32, TimeSample.atReset⟩)
      ⟨rfl, .inr (.inr ⟨_, rfl⟩)⟩ (exec_dlgret_of_pending _ _ rfl))
    exact ⟨_, hreply, rfl, hmode, hlatch⟩

/-- Between two chords: nothing outstanding, the latch clear, and the mode `m`. -/
structure AtRest (m : ClockMode) (s : State) : Prop where
  pending : s.fsm.pending = false
  latch : s.fsm.latch = false
  mode : s.fsm.mode = m

/-- One whole chord: both buttons held, a pass, both buttons released, a pass (R134). -/
theorem AtRest.chord {m : ClockMode} {s : State} (h : AtRest m s) : ∃ t, ChordReaches s t ∧ AtRest m.next t := by
  obtain ⟨s₁, hr₁, hA₁, hB₁, hfsm₁⟩ := chordReaches_hold true s
  have hfires : s₁.fires = true := s₁.fires_iff.mpr ⟨hA₁, hB₁, hfsm₁ ▸ h.latch⟩
  obtain ⟨s₂, hr₂, hp₂, hm₂, hl₂⟩ := chordReaches_pass (s := s₁) (hfsm₁ ▸ h.pending)
  rw [hfires] at hm₂ hl₂
  obtain ⟨s₃, hr₃, hA₃, hB₃, hfsm₃⟩ := chordReaches_hold false s₂
  have hstill : s₃.fires = false := State.fires_of_latch (hfsm₃ ▸ hl₂)
  obtain ⟨t, hr, hp, hm, hl⟩ := chordReaches_pass (s := s₃) (hfsm₃ ▸ hp₂)
  refine ⟨t, ((hr₁.trans hr₂).trans hr₃).trans hr, hp, ?_, ?_⟩
  · simp [hl, hstill, hA₃, hB₃]
  · simp [hm, hstill, hfsm₃, hm₂, hfsm₁, h.mode]

/-- The mode is reached from reset, between two chords, by a run by chords. -/
def ReachedByChords (c : Config) (m : ClockMode) : Prop := ∃ t, ChordReaches (State.resetWith c) t ∧ AtRest m t

theorem ReachedByChords.next {c : Config} {m : ClockMode} (h : ReachedByChords c m) : ReachedByChords c m.next := by
  obtain ⟨s, hs, hrest⟩ := h
  obtain ⟨t, ht, hrest'⟩ := hrest.chord
  exact ⟨t, hs.trans ht, hrest'⟩

/-- The cycle, from the mode at reset, goes through every mode (R134). -/
theorem reachedByChords (c : Config) (m : ClockMode) : ReachedByChords c m := by
  have hfullBinary : ReachedByChords c .fullBinary := ⟨State.resetWith c, .refl _, rfl, rfl, rfl⟩
  cases m with
  | fullBinary => exact hfullBinary
  | subBinary => exact hfullBinary.next
  | ballGame => exact hfullBinary.next.next
  | manualSet => exact hfullBinary.next.next.next
  | serialSet => exact hfullBinary.next.next.next.next
  | paused => exact hfullBinary.next.next.next.next.next

/-! ## The statements -/

/-- Settles O35: the first pass leaves LAST_TCNT equal to TCNT, the run between advances TCNT by its TICKs alone, and the
second pass emits the difference. -/
theorem elapsedCountsTheTicksBetweenPasses : Obligations.ElapsedCountsTheTicksBetweenPasses := by
  intro p q l s s₀ s₁ s₂ hpi hqi hreset hiter hp hl hq hm
  rw [performOne, hpi] at hp
  rw [performOne, hqi] at hq
  obtain rfl := eq_iterPass_of_exec_iter hp
  obtain rfl := eq_iterPass_of_exec_iter hq
  obtain ⟨hlast, htcnt⟩ := performAll_tcnt hreset hiter hl
  obtain ⟨d, hd, helapsed⟩ := State.iterPass_emits_elapsed hm
  refine ⟨d, hd, ?_⟩
  have hcount : d.elapsed = BitVec.ofNat 32 (countTicks l) :=
    calc d.elapsed
        = s₁.tcnt - s₁.fsm.lastTcnt := helapsed
      _ = s.tcnt + BitVec.ofNat 32 (countTicks l) - s.tcnt := by
          rw [hlast, htcnt, State.iterPass_lastTcnt, State.iterPass_tcnt]; rfl
      _ = BitVec.ofNat 32 (countTicks l) := add_sub_cancel_left _ _
  rw [hcount, BitVec.toNat_ofNat]

/-- Settles O51, by induction on the run: with the reads taken out it goes through states that differ from the run's in
the input ports and the returned results alone. -/
theorem readsAreInvisibleToTheRun : Obligations.ReadsAreInvisibleToTheRun := by
  intro l s t h
  obtain ⟨u, hu, hsame⟩ := (SameButReads.refl s).performAll_filter h
  exact ⟨u, hu, hsame.sameRegisters, hsame.emitted⟩

/-- Settles O52: the brightness registers are a function of those before the run and of what the Brightness Controller
sees of it. -/
theorem brightnessIsIndependentOfTheModeMachine : Obligations.BrightnessIsIndependentOfTheModeMachine := by
  intro l l' s s' t t' hbrt hview h h'
  rw [performAll_brt h, performAll_brt h', hbrt, hview]

/-- Settles O32, by the pass's registers and its frame. -/
theorem iterTakesTheSnapshot : Obligations.IterTakesTheSnapshot := fun s hp =>
  ⟨s.iterPass, exec_iter_of_not_pending hp, s.iterPass_btnA, s.iterPass_btnB, s.iterPass_tsample, s.iterPass_lastTcnt,
    s.iterPass_display, s.iterPass_frame⟩

/-- Settles O33, by the registers after a pass in which the chord fires and in one in which it does not. -/
theorem chordMovesTheModeOnce : Obligations.ChordMovesTheModeOnce := by
  intro s fire hp hfire
  obtain rfl : fire = s.fires := hfire
  refine ⟨s.iterPass, exec_iter_of_not_pending hp, fun hf => ?_, fun hf => ?_⟩
  · rw [State.iterPass_mode, State.iterPass_hist, State.iterPass_latch, State.modeAfterChord_mode,
      State.modeAfterChord_hist, State.modeAfterChord_latch, hf]
    refine ⟨?_, by simp, by simp⟩
    cases s.fsm.mode <;> rfl
  · simp [State.modeAfterChord_mode, State.modeAfterChord_hist, State.modeAfterChord_latch, hf]

/-- Settles O38: the recorded word is the encoding of the DLGRET. -/
theorem dlgretWithoutDispatchFaults : Obligations.DlgretWithoutDispatchFaults := by
  intro req disp s hp
  rw [exec_dlgret_of_not_pending req disp hp, encode_dlgret]
  cases req <;> rfl

/-- Settles O39, request by request: NONE and RSV are never valid exit requests. -/
theorem dlgretPerformsTheExitRequest : Obligations.DlgretPerformsTheExitRequest := by
  intro disp s hp
  refine ⟨fun hm => ?_, fun hm => ?_, exec_dlgret_of_invalid (req := .none) hp (by simp) (by simp) disp,
    exec_dlgret_of_invalid (req := .rsv) hp (by simp) (by simp) disp⟩
  · rw [exec_dlgret_of_pending _ _ hp, ModeRegs.reply_prev_of_editing (s.fsm.mode.isEditing_iff.mpr hm)]
  · rw [exec_dlgret_of_pending _ _ hp, ModeRegs.reply_full_of_ballGame hm]

/-- Settles O40: the editing modes are ManualSet and SerialSet. -/
theorem dlgretIgnoresAnInvalidRequest : Obligations.DlgretIgnoresAnInvalidRequest := by
  intro req disp s hp hprev hfull
  rw [← ClockMode.isEditing_iff] at hprev
  exact exec_dlgret_of_invalid hp hprev hfull disp

/-- Settles O42: but for RESET only a pass and a reply write MODE, and each changes it in the ways of the table alone. -/
theorem modeChangesOnlyByTheTransitionTable : Obligations.ModeChangesOnlyByTheTransitionTable := by
  intro i s t h hne
  by_cases hreset : i = .reset
  · exact .inr (.inr (.inr hreset))
  rcases exec_fsm_cases h hreset with ⟨hfsm, -⟩ | ⟨hi, rfl⟩ | ⟨req, disp, rfl, -, rfl⟩
  · exact absurd (by rw [hfsm]) hne
  · obtain ⟨hfires, hmode⟩ := State.fires_of_iterPass_mode_ne hne
    obtain ⟨hA, hB, hlatch⟩ := s.fires_iff.mp hfires
    refine .inl ⟨hi, hA, hB, hlatch, ?_⟩
    rw [hmode]
    cases s.fsm.mode <;> decide
  · rcases ModeRegs.reply_of_mode_ne hne with ⟨rfl, hm, hhist⟩ | ⟨rfl, hm, hfull⟩
    · exact .inr (.inl ⟨disp, rfl, s.fsm.mode.isEditing_iff.mp hm, hhist⟩)
    · exact .inr (.inr (.inl ⟨disp, rfl, hm, hfull⟩))

/-- Settles O44: as many chords from reset as the mode is places from FullBinary in the cycle. -/
theorem everyModeIsReachableByChords : Obligations.EveryModeIsReachableByChords := by
  intro c m
  obtain ⟨t, ⟨l, hl, hrun⟩, hrest⟩ := reachedByChords c m
  exact ⟨l, t, hl, hrun, hrest.mode⟩

/-- Settles O31: the recorded word is the encoding of ITER. -/
theorem iterWhilePendingFaults : Obligations.IterWhilePendingFaults := fun _ => exec_iter_of_pending

end Sys2Proof.Safety

/-! Proofs of the statements about the Brightness Controller (41_brightness.md): TICK's PWM part, the duty law, the
ping-pong fade, and the level request. -/

namespace Sys2Proof.Machine

/-! ## The step (R180) -/

theorem BrightRegs.pwmTick_step_of_nine {b : BrightRegs} (h : b.step.toNat = 9) : b.pwmTick.step = 0#4 := by
  rw [pwmTick_of_step_nine h]
  exact (periodEnd_frame _).1

theorem BrightRegs.pwmTick_step_toNat {b : BrightRegs} (h : b.step.toNat ≤ 9) :
    b.pwmTick.step.toNat = (b.step.toNat + 1) % 10 := by
  by_cases hnine : b.step.toNat = 9
  · rw [pwmTick_step_of_nine hnine, hnine]
    rfl
  · rw [pwmTick_of_step_ne_nine hnine, BitVec.toNat_ofNat]
    omega

/-! ## One fade step (R182) -/

theorem fadeStep_up_toNat (l : BitVec 4) : (fadeStep .up l).toNat = min (l.toNat + 1) 10 := by
  rw [fadeStep, BitVec.toNat_ofNat, levelMax]
  omega

theorem fadeStep_down_toNat (l : BitVec 4) : (fadeStep .down l).toNat = max (l.toNat - 1) 5 := by
  rw [fadeStep, BitVec.toNat_ofNat, levelMin]
  omega

/-! ## The tick that ends the period, case by case (R182) -/

section
variable {b : BrightRegs} (hstep : b.step.toNat = 9)
include hstep

theorem BrightRegs.pwmTick_of_request (hvalid : b.reqValid = true) :
    b.pwmTick =
      { b with
        out := pwmOn b.step b.level, step := 0#4, level := b.req, fadeDir := b.fadeDir.afterLevel b.req
        reqValid := false } := by
  rw [pwmTick_of_step_nine hstep, periodEnd, if_pos hvalid]

theorem BrightRegs.pwmTick_of_fade (hvalid : b.reqValid = false) (hfade : b.fadeEn = true) :
    b.pwmTick =
      { b with
        out := pwmOn b.step b.level, step := 0#4, level := fadeStep b.fadeDir b.level
        fadeDir := b.fadeDir.afterLevel (fadeStep b.fadeDir b.level) } := by
  rw [pwmTick_of_step_nine hstep, periodEnd, if_neg (by simp [hvalid]), if_pos hfade]

theorem BrightRegs.pwmTick_of_no_fade (hvalid : b.reqValid = false) (hfade : b.fadeEn = false) :
    b.pwmTick = { b with out := pwmOn b.step b.level, step := 0#4 } := by
  rw [pwmTick_of_step_nine hstep, periodEnd, if_neg (by simp [hvalid]), if_neg (by simp [hfade])]

end

/-! ## The operations between two ticks -/

theorem BrightRegs.after_of_isTick {i : Instr} (h : Safety.isTick i = true) (b : BrightRegs) : b.after i = b.pwmTick := by
  cases i with
  | tick => rfl
  | iter | dlgret | fade | bset | rdmode | rdbrt | rddisp | reset => cases h

/-- Between two ticks the step, the level and the direction stand, but for RESET. -/
theorem BrightRegs.after_keeps_pwm {i : Instr} (htick : Safety.isTick i = false) (hreset : i ≠ .reset) (b : BrightRegs) :
    (b.after i).step = b.step ∧ (b.after i).level = b.level ∧ (b.after i).fadeDir = b.fadeDir := by
  cases i with
  | tick => cases htick
  | bset lvl => rw [after]; split <;> exact ⟨rfl, rfl, rfl⟩
  | reset => exact absurd rfl hreset
  | iter | dlgret | fade | rdmode | rdbrt | rddisp => exact ⟨rfl, rfl, rfl⟩

/-- Between two ticks the mailbox stands, but for RESET and BSET. -/
theorem BrightRegs.after_keeps_mailbox {i : Instr} (htick : Safety.isTick i = false) (hreset : i ≠ .reset)
    (hbset : ∀ lvl, i ≠ .bset lvl) (b : BrightRegs) :
    (b.after i).reqValid = b.reqValid ∧ (b.after i).req = b.req := by
  cases i with
  | tick => cases htick
  | bset lvl => exact absurd rfl (hbset lvl)
  | reset => exact absurd rfl hreset
  | iter | dlgret | fade | rdmode | rdbrt | rddisp => exact ⟨rfl, rfl⟩

/-- Only FADE 0 and RESET switch the fade off. -/
theorem BrightRegs.after_keeps_fadeEn {i : Instr} (htick : Safety.isTick i = false) (hreset : i ≠ .reset)
    (hfade : i ≠ .fade false) {b : BrightRegs} (h : b.fadeEn = true) : (b.after i).fadeEn = true := by
  cases i with
  | tick => cases htick
  | fade en =>
    cases en with
    | true => rfl
    | false => exact absurd rfl hfade
  | bset lvl => rw [after]; split <;> exact h
  | reset => exact absurd rfl hreset
  | iter | dlgret | rdmode | rdbrt | rddisp => exact h

end Sys2Proof.Machine

namespace Sys2Proof.Safety

open Sys2Proof Sys2Proof.Machine

/-! ## Facts about the brightness registers that count the ticks of a run -/

/-- A fact about a tick count and the brightness registers that every tick carries to the next count, and that every
other operation of the run keeps, holds at the run's end with its ticks counted. -/
theorem performAll_counts_ticks {P : Nat → BrightRegs → Prop} {l : List Performed}
    (hTick : ∀ n b, P n b → P (n + 1) b.pwmTick)
    (hOther : ∀ p ∈ l, isTick p.instr = false → ∀ n b, P n b → P n (b.after p.instr)) {n : Nat} {s t : State}
    (hs : P n s.brt) (h : performAll l s = .next t) : P (n + countTicks l) t.brt := by
  induction l generalizing n s with
  | nil => cases h; exact hs
  | cons p ps ih =>
    obtain ⟨u, hu, ht⟩ := performAll_cons h
    obtain ⟨hOtherp, hOtherps⟩ := List.forall_mem_cons.mp hOther
    have hbrt : u.brt = s.brt.after p.instr := exec_brt_eq_after (s := withInputs s p) hu
    rw [countTicks_cons]
    cases htick : isTick p.instr with
    | true =>
      have hone : P (n + 1) u.brt := by
        rw [hbrt, BrightRegs.after_of_isTick htick]
        exact hTick n s.brt hs
      rw [if_pos rfl, ← Nat.add_assoc, Nat.add_right_comm]
      exact ih hOtherps hone ht
    | false => exact ih hOtherps (hbrt ▸ hOtherp htick n s.brt hs) ht

/-! ## The step over a run (R180) -/

/-- But for RESET, the step counts the ticks modulo ten. -/
theorem performAll_step {l : List Performed} {s t : State} (hs : s.brt.step.toNat ≤ 9) (hreset : NoReset l)
    (h : performAll l s = .next t) : t.brt.step.toNat = (s.brt.step.toNat + countTicks l) % 10 := by
  refine performAll_counts_ticks (P := fun n b => b.step.toNat = n % 10) (fun n b hb => ?_)
    (fun p hp htick n b hb => ?_) (by omega) h
  · rw [BrightRegs.pwmTick_step_toNat (by omega), hb, Nat.mod_add_mod]
  · obtain ⟨hstep, -⟩ := BrightRegs.after_keeps_pwm htick (hreset p hp) b
    rw [hstep, hb]

/-! ## Within one period (R181) -/

/-- `n` ticks into a period of the level `level`; nothing is said once the period is over. -/
def InPeriod (level : BitVec 4) (n : Nat) (b : BrightRegs) : Prop := n < 10 → b.step.toNat = n ∧ b.level = level

theorem InPeriod.pwmTick {level : BitVec 4} {n : Nat} {b : BrightRegs} (h : InPeriod level n b) :
    InPeriod level (n + 1) b.pwmTick := by
  intro hn
  obtain ⟨hstep, hlevel⟩ := h (by omega)
  have hne : b.step.toNat ≠ 9 := by omega
  rw [BrightRegs.pwmTick_step_toNat (by omega), (BrightRegs.pwmTick_keeps_level hne).1, hstep]
  exact ⟨Nat.mod_eq_of_lt hn, hlevel⟩

theorem InPeriod.after {level : BitVec 4} {n : Nat} {b : BrightRegs} (h : InPeriod level n b) {i : Instr}
    (htick : isTick i = false) (hreset : i ≠ .reset) : InPeriod level n (b.after i) := by
  obtain ⟨hstep, hlevel, -⟩ := BrightRegs.after_keeps_pwm htick hreset b
  rw [InPeriod, hstep, hlevel]
  exact h

theorem performAll_inPeriod {level : BitVec 4} {n : Nat} {l : List Performed} {s t : State}
    (hs : InPeriod level n s.brt) (hreset : NoReset l) (h : performAll l s = .next t) :
    InPeriod level (n + countTicks l) t.brt :=
  performAll_counts_ticks (fun _ _ => InPeriod.pwmTick)
    (fun p hp htick _ _ hb => hb.after htick (hreset p hp)) hs h

theorem onTicks_cons_of_next {p : Performed} {l : List Performed} {s u : State} (h : performOne p s = .next u) :
    onTicks (p :: l) s = (if isTick p.instr && u.brt.out then 1 else 0) + onTicks l u := by
  rw [onTicks, h]

/-- From `n` ticks into a period and within it, the ticks that drive PWM_OUT to 1 are those at a step below the level. -/
theorem onTicks_of_inPeriod {level : BitVec 4} {n : Nat} {l : List Performed} {s t : State}
    (hs : InPeriod level n s.brt) (hreset : NoReset l) (hn : n + countTicks l ≤ 10) (h : performAll l s = .next t) :
    onTicks l s + min n level.toNat = min (n + countTicks l) level.toNat := by
  induction l generalizing n s with
  | nil => exact Nat.zero_add _
  | cons p ps ih =>
    obtain ⟨u, hu, ht⟩ := performAll_cons h
    obtain ⟨hresetp, hresetps⟩ := List.forall_mem_cons.mp hreset
    have hbrt : u.brt = s.brt.after p.instr := exec_brt_eq_after (s := withInputs s p) hu
    rw [onTicks_cons_of_next hu]
    rw [countTicks_cons] at hn ⊢
    cases htick : isTick p.instr with
    | true =>
      simp only [htick, if_true] at hn
      obtain ⟨hstep, hlevel⟩ := hs (by omega)
      rw [BrightRegs.after_of_isTick htick] at hbrt
      have hout : u.brt.out = decide (n < level.toNat) := by rw [hbrt, BrightRegs.pwmTick_out, pwmOn, hstep, hlevel]
      have hrest := ih (n := n + 1) (hbrt ▸ hs.pwmTick) hresetps (by omega) ht
      simp only [hout, Bool.true_and, decide_eq_true_eq, if_true]
      split <;> omega
    | false =>
      simp only [htick, Bool.false_and, Bool.false_eq_true, if_false, Nat.add_zero, Nat.zero_add] at hn ⊢
      exact ih (hbrt ▸ hs.after htick hresetp) hresetps hn ht

/-! ## The ping-pong fade (R183) -/

/-- One fade step of a ping-pong level leads to the next one. -/
theorem fadeStep_pingPong {l : BitVec 4} {k : Nat} (h : l.toNat = pingPongLevel k) :
    (fadeStep (pingPongDir k) l).toNat = pingPongLevel (k + 1) := by
  unfold pingPongLevel at h ⊢
  unfold pingPongDir
  split
  · rw [fadeStep_down_toNat]
    split at h <;> split <;> omega
  · rw [fadeStep_up_toNat]
    split at h <;> split <;> omega

theorem pingPongLevel_eq_max_iff (k : Nat) : pingPongLevel k = levelMax ↔ k % 10 = 0 := by
  rw [pingPongLevel, levelMax]
  split <;> omega

theorem pingPongLevel_eq_min_iff (k : Nat) : pingPongLevel k = levelMin ↔ k % 10 = 5 := by
  rw [pingPongLevel, levelMin]
  split <;> omega

/-- The direction turns on reaching a bound, and there alone. -/
theorem afterLevel_pingPong {l : BitVec 4} {k : Nat} (h : l.toNat = pingPongLevel (k + 1)) :
    (pingPongDir k).afterLevel l = pingPongDir (k + 1) := by
  simp only [FadeDir.afterLevel, h, pingPongLevel_eq_max_iff, pingPongLevel_eq_min_iff]
  split
  next hmax => exact (if_pos (by omega)).symm
  next hmax =>
    split
    next hmin => exact (if_neg (by omega)).symm
    next hmin =>
      have hsame : k % 10 < 5 ↔ (k + 1) % 10 < 5 := by omega
      simp only [pingPongDir, hsame]

/-- The brightness registers `n` ticks after a ping-pong fade began at the level 10, DOWN. -/
structure PingPongAt (n : Nat) (b : BrightRegs) : Prop where
  step : b.step.toNat = n % 10
  level : b.level.toNat = pingPongLevel (n / 10)
  fadeDir : b.fadeDir = pingPongDir (n / 10)
  fadeEn : b.fadeEn = true
  reqValid : b.reqValid = false

theorem PingPongAt.pwmTick {n : Nat} {b : BrightRegs} (h : PingPongAt n b) : PingPongAt (n + 1) b.pwmTick := by
  obtain ⟨hstep, hlevel, hdir, hen, hvalid⟩ := h
  have hnext : b.pwmTick.step.toNat = (n + 1) % 10 := by
    rw [BrightRegs.pwmTick_step_toNat (by omega), hstep, Nat.mod_add_mod]
  by_cases hnine : b.step.toNat = 9
  · have hperiod : (n + 1) / 10 = n / 10 + 1 := by omega
    have hfaded := fadeStep_pingPong hlevel
    have hturned := afterLevel_pingPong hfaded
    refine ⟨hnext, ?_, ?_, ?_, ?_⟩ <;> rw [BrightRegs.pwmTick_of_fade hnine hvalid hen]
    · rwa [hperiod, hdir]
    · rwa [hperiod, hdir]
    · exact hen
    · exact hvalid
  · have hperiod : (n + 1) / 10 = n / 10 := by omega
    refine ⟨hnext, ?_, ?_, ?_, ?_⟩ <;> rw [BrightRegs.pwmTick_of_step_ne_nine hnine]
    · rwa [hperiod]
    · rwa [hperiod]
    · exact hen
    · exact hvalid

theorem PingPongAt.after {n : Nat} {b : BrightRegs} (h : PingPongAt n b) {i : Instr} (htick : isTick i = false)
    (hreset : i ≠ .reset) (hfade : i ≠ .fade false) (hbset : ∀ lvl, i ≠ .bset lvl) : PingPongAt n (b.after i) := by
  obtain ⟨hstep, hlevel, hdir⟩ := BrightRegs.after_keeps_pwm htick hreset b
  obtain ⟨hvalid, -⟩ := BrightRegs.after_keeps_mailbox htick hreset hbset b
  exact ⟨hstep ▸ h.step, hlevel ▸ h.level, hdir ▸ h.fadeDir, BrightRegs.after_keeps_fadeEn htick hreset hfade h.fadeEn,
    hvalid ▸ h.reqValid⟩

/-! ## A level request (R185, R278) -/

/-- The brightness registers `n` ticks into a period of the level `level` in which the level `lvl` has been requested. -/
structure RequestAt (level lvl : BitVec 4) (n : Nat) (b : BrightRegs) : Prop where
  inPeriod : InPeriod level n b
  waiting : n < 10 → b.reqValid = true ∧ b.req = lvl
  applied : n = 10 → b.level = lvl ∧ b.reqValid = false

theorem RequestAt.pwmTick {level lvl : BitVec 4} {n : Nat} {b : BrightRegs} (h : RequestAt level lvl n b) :
    RequestAt level lvl (n + 1) b.pwmTick := by
  refine ⟨h.inPeriod.pwmTick, fun hn => ?_, fun hn => ?_⟩
  · obtain ⟨hstep, -⟩ := h.inPeriod (by omega)
    obtain ⟨hvalid, hreq⟩ := h.waiting (by omega)
    rw [BrightRegs.pwmTick_of_step_ne_nine (by omega)]
    exact ⟨hvalid, hreq⟩
  · obtain ⟨hstep, -⟩ := h.inPeriod (by omega)
    obtain ⟨hvalid, hreq⟩ := h.waiting (by omega)
    rw [BrightRegs.pwmTick_of_request (by omega) hvalid]
    exact ⟨hreq, rfl⟩

theorem RequestAt.after {level lvl : BitVec 4} {n : Nat} {b : BrightRegs} (h : RequestAt level lvl n b) {i : Instr}
    (htick : isTick i = false) (hreset : i ≠ .reset) (hbset : ∀ k, i ≠ .bset k) :
    RequestAt level lvl n (b.after i) := by
  obtain ⟨-, hlevel, -⟩ := BrightRegs.after_keeps_pwm htick hreset b
  obtain ⟨hvalid, hreq⟩ := BrightRegs.after_keeps_mailbox htick hreset hbset b
  refine ⟨h.inPeriod.after htick hreset, ?_, ?_⟩
  · rw [hvalid, hreq]
    exact h.waiting
  · rw [hlevel, hvalid]
    exact h.applied

/-- A valid BSET at a legal step leaves its request waiting in the period that runs. -/
theorem RequestAt.of_bset {lvl : BitVec 4} {p : Performed} {s t : State} (hs : s.brt.step.toNat ≤ 9)
    (hp : p.instr = .bset lvl) (hlvl : 5 ≤ lvl.toNat ∧ lvl.toNat ≤ 10) (h : performOne p s = .next t) :
    RequestAt s.brt.level lvl s.brt.step.toNat t.brt := by
  rw [performOne, hp, exec_bset_of_legal (levelInRange_of_bounds hlvl)] at h
  cases h
  exact ⟨fun _ => ⟨rfl, rfl⟩, fun _ => ⟨rfl, rfl⟩, fun _ => by omega⟩

/-! ## The statements -/

/-- Settles O25: within the period the level stands, and the ticks at a step below it drive PWM_OUT to 1. -/
theorem dutyLaw : Obligations.DutyLaw := by
  intro l s t hstep hlevel hreset hticks h
  have hstart : InPeriod s.brt.level 0 s.brt := fun _ => ⟨hstep, rfl⟩
  refine ⟨?_, ?_, fun l₁ l₂ u hl hticks₁ h₁ => ?_⟩
  · have hon := onTicks_of_inPeriod hstart hreset (by omega) h
    omega
  · rw [performAll_step (by omega) hreset h, hstep, hticks]
  · have hreset₁ : NoReset l₁ := fun p hp => hreset p (hl ▸ List.mem_append_left l₂ hp)
    exact (performAll_inPeriod hstart hreset₁ h₁ (by omega)).2

/-- Settles O26: every tick carries the ping-pong registers to the next count, and the operations allowed between
ticks keep them. -/
theorem pingPongLaw : Obligations.PingPongLaw := by
  intro l s t hstep hlevel hdir hen hvalid hreset hfade hbset h
  have hstart : PingPongAt 0 s.brt := ⟨hstep, hlevel, hdir, hen, hvalid⟩
  have hend : PingPongAt (0 + countTicks l) t.brt :=
    performAll_counts_ticks (fun _ _ => PingPongAt.pwmTick)
      (fun p hp htick _ _ hb => hb.after htick (hreset p hp) (hfade p hp) (hbset p hp)) hstart h
  rw [Nat.zero_add] at hend
  exact ⟨hend.level, hend.fadeDir, hend.step⟩

/-- Settles O48: the request waits in the mailbox up to the tick at step 9, which applies it. -/
theorem levelRequestWaitsForThePeriodEnd : Obligations.LevelRequestWaitsForThePeriodEnd := by
  intro p lvl l s s₀ t hstep hp hlow hhigh hbset hreset hno h
  have hend : RequestAt s.brt.level lvl (s.brt.step.toNat + countTicks l) t.brt :=
    performAll_counts_ticks (fun _ _ => RequestAt.pwmTick)
      (fun q hq htick _ _ hb => hb.after htick (hreset q hq) (hno q hq))
      (RequestAt.of_bset hstep hp ⟨hlow, hhigh⟩ hbset) h
  rw [Nat.add_comm] at hend
  exact ⟨fun hn => ⟨(hend.inPeriod hn).2, (hend.waiting hn).1⟩, hend.applied⟩

/-- Settles O19, by the tick that ends the period and the tick that does not. -/
theorem tickDrivesTheSoftPwm : Obligations.TickDrivesTheSoftPwm := by
  intro ra rb s
  refine ⟨_, exec_tick ra rb s, s.brt.pwmTick_out, fun hnine => ?_, fun hlt => ?_⟩
  · exact congrArg BitVec.toNat (BrightRegs.pwmTick_step_of_nine hnine)
  · have hnext : BitVec.ofNat 4 (s.brt.step.toNat + 1) = s.brt.step + 1#4 := by
      rw [BitVec.ofNat_add, BitVec.ofNat_toNat, BitVec.setWidth_eq]
    exact (BrightRegs.pwmTick_of_step_ne_nine (by omega)).trans (by rw [hnext]; rfl)

/-- Settles O20, by the three cases of a period end: a request, a fade step, neither. -/
theorem periodEndAppliesRequestOrFade : Obligations.PeriodEndAppliesRequestOrFade := by
  intro ra rb s hnine
  refine ⟨_, exec_tick ra rb s, ?_⟩
  cases hvalid : s.brt.reqValid with
  | true =>
    rw [BrightRegs.pwmTick_of_request hnine hvalid]
    exact ⟨rfl, rfl, rfl, fun _ => rfl, nofun, nofun, fun _ => rfl, nofun⟩
  | false =>
    cases hfade : s.brt.fadeEn with
    | true =>
      rw [BrightRegs.pwmTick_of_fade hnine hvalid hfade]
      refine ⟨hfade, rfl, hvalid, nofun, fun _ _ hup => ?_, fun _ _ hdown => ?_, fun _ => rfl, nofun⟩
      · exact hup ▸ fadeStep_up_toNat s.brt.level
      · exact hdown ▸ fadeStep_down_toNat s.brt.level
    | false =>
      rw [BrightRegs.pwmTick_of_no_fade hnine hvalid hfade]
      exact ⟨hfade, rfl, hvalid, nofun, nofun, nofun, nofun, fun _ _ => ⟨rfl, rfl⟩⟩

/-- Settles O46: it is FADE's meaning. -/
theorem fadeWritesTheEnable : Obligations.FadeWritesTheEnable := exec_fade

end Sys2Proof.Safety

/-! Proofs of the statements about the Input Debouncer (42_debouncer.md): a sample, a sequence of samples, and what a run
shows of one button. -/

namespace Sys2Proof.Machine

open Sys2Proof

/-! ## One sample (R210) -/

theorem ButtonRegs.sample_of_agree {c : Config} {raw : Bool} {b : ButtonRegs} (h : logicalPressed c raw = b.stable) :
    b.sample c raw = { stable := b.stable, cnt := 0#16, edge := .none } := by
  rw [sample, if_pos h]

theorem ButtonRegs.sample_of_commit {c : Config} {raw : Bool} {b : ButtonRegs} (h : logicalPressed c raw ≠ b.stable)
    (hwindow : c.dbWindow ≤ b.cnt.toNat + 1) :
    b.sample c raw =
      { stable := logicalPressed c raw, cnt := 0#16, edge := Edge.toLevel (logicalPressed c raw) } := by
  have hreached : windowReached c b.cnt = true := decide_eq_true hwindow
  rw [sample, if_neg h, if_pos hreached]

theorem ButtonRegs.sample_of_count {c : Config} {raw : Bool} {b : ButtonRegs} (h : logicalPressed c raw ≠ b.stable)
    (hwindow : b.cnt.toNat + 1 < c.dbWindow) :
    b.sample c raw = { stable := b.stable, cnt := b.cnt + 1#16, edge := .none } := by
  have hnot : windowReached c b.cnt = false := decide_eq_false (Nat.not_le.mpr hwindow)
  have hnext : BitVec.ofNat 16 (b.cnt.toNat + 1) = b.cnt + 1#16 := by
    rw [BitVec.ofNat_add, BitVec.ofNat_toNat, BitVec.setWidth_eq]
  rw [sample, if_neg h, hnot, hnext]
  rfl

/-- A counter below the window counts without overflow (R34). -/
theorem toNat_cnt_succ {c : Config} {cnt : BitVec 16} (h : cnt.toNat + 1 < c.dbWindow) :
    (cnt + 1#16).toNat = cnt.toNat + 1 := by
  have hwindow : c.dbWindow ≤ 65535 := c.windowLessOne.isLt
  exact BitVec.toNat_add_of_lt (by omega : cnt.toNat + 1 < 65536)

/-- A sample reads the stable level and the counter, which ITER leaves, and not the edge, which it consumes (R217). -/
theorem ButtonRegs.sample_congr {b b' : ButtonRegs} (h : b.consume = b'.consume) (c : Config) (raw : Bool) :
    b.sample c raw = b'.sample c raw :=
  calc
    b.sample c raw = b.consume.sample c raw := (sample_edge_irrelevant c raw .none b).symm
    _ = b'.consume.sample c raw := by rw [h]
    _ = b'.sample c raw := sample_edge_irrelevant c raw .none b'

@[simp] theorem ButtonRegs.consume_consume (b : ButtonRegs) : b.consume.consume = b.consume := rfl

/-! ## A sequence of samples -/

/-- The registers of a button after a sequence of raw levels. -/
def ButtonRegs.samples (c : Config) : List Bool → ButtonRegs → ButtonRegs
  | [], b => b
  | raw :: raws, b => samples c raws (b.sample c raw)

/-- The edges a sequence of raw levels produces, one entry per sample. -/
def ButtonRegs.edges (c : Config) : List Bool → ButtonRegs → List Edge
  | [], _ => []
  | raw :: raws, b => (b.sample c raw).edge :: edges c raws (b.sample c raw)

theorem ButtonRegs.samples_cons (c : Config) (raw : Bool) (raws : List Bool) (b : ButtonRegs) :
    b.samples c (raw :: raws) = (b.sample c raw).samples c raws := rfl

theorem ButtonRegs.edges_cons (c : Config) (raw : Bool) (raws : List Bool) (b : ButtonRegs) :
    b.edges c (raw :: raws) = (b.sample c raw).edge :: (b.sample c raw).edges c raws := rfl

/-- An edge held before the samples shows in nothing they leave but, where there are none, in itself. -/
theorem ButtonRegs.samples_congr {b b' : ButtonRegs} (h : b.consume = b'.consume) (c : Config) (raws : List Bool) :
    (b.samples c raws).consume = (b'.samples c raws).consume ∧ b.edges c raws = b'.edges c raws := by
  cases raws with
  | nil => exact ⟨h, rfl⟩
  | cons raw raws =>
    rw [samples_cons, samples_cons, edges_cons, edges_cons, sample_congr h]
    exact ⟨rfl, rfl⟩

/-- Samples that agree with the stable level make no edge. -/
theorem ButtonRegs.samples_of_agree {c : Config} {raws : List Bool} {b : ButtonRegs}
    (h : ∀ raw ∈ raws, logicalPressed c raw = b.stable) :
    b.edges c raws = List.replicate raws.length .none ∧ (b.samples c raws).stable = b.stable := by
  induction raws generalizing b with
  | nil => exact ⟨rfl, rfl⟩
  | cons raw raws ih =>
    obtain ⟨hraw, hraws⟩ := List.forall_mem_cons.mp h
    rw [edges_cons, samples_cons, sample_of_agree hraw]
    obtain ⟨hedges, hstable⟩ := ih (b := { stable := b.stable, cnt := 0#16, edge := .none }) hraws
    exact ⟨congrArg (Edge.none :: ·) hedges, hstable⟩

/-- Differing samples that do not fill the window make no edge and leave the stable level (R213). -/
theorem ButtonRegs.samples_of_short {c : Config} {raws : List Bool} {b : ButtonRegs}
    (h : ∀ raw ∈ raws, logicalPressed c raw = !b.stable) (hshort : b.cnt.toNat + raws.length < c.dbWindow) :
    b.edges c raws = List.replicate raws.length .none ∧ (b.samples c raws).stable = b.stable := by
  induction raws generalizing b with
  | nil => exact ⟨rfl, rfl⟩
  | cons raw raws ih =>
    obtain ⟨hraw, hraws⟩ := List.forall_mem_cons.mp h
    rw [List.length_cons] at hshort
    have hcount : b.cnt.toNat + 1 < c.dbWindow := by omega
    rw [edges_cons, samples_cons, sample_of_count (by simp [hraw]) hcount]
    obtain ⟨hedges, hstable⟩ := ih (b := { stable := b.stable, cnt := b.cnt + 1#16, edge := .none }) hraws
      (by rw [toNat_cnt_succ hcount]; omega)
    exact ⟨congrArg (Edge.none :: ·) hedges, hstable⟩

/-- Differing samples that fill the window make one edge, on the sample that fills it (R214). -/
theorem ButtonRegs.samples_of_held {c : Config} {v : Bool} {raws : List Bool} {b : ButtonRegs}
    (hstable : b.stable = !v) (h : ∀ raw ∈ raws, logicalPressed c raw = v) (hcnt : b.cnt.toNat < c.dbWindow)
    (hheld : c.dbWindow ≤ b.cnt.toNat + raws.length) :
    b.edges c raws =
        List.replicate (c.dbWindow - 1 - b.cnt.toNat) .none ++ Edge.toLevel v ::
          List.replicate (b.cnt.toNat + raws.length - c.dbWindow) .none ∧
      (b.samples c raws).stable = v := by
  induction raws generalizing b with
  | nil => exact absurd hheld (Nat.not_le.mpr hcnt)
  | cons raw raws ih =>
    obtain ⟨hraw, hraws⟩ := List.forall_mem_cons.mp h
    have hdiffer : logicalPressed c raw ≠ b.stable := by simp [hraw, hstable]
    rw [List.length_cons] at hheld ⊢
    rw [edges_cons, samples_cons]
    by_cases hwindow : c.dbWindow ≤ b.cnt.toNat + 1
    · rw [sample_of_commit hdiffer hwindow, hraw]
      obtain ⟨hedges, hend⟩ := samples_of_agree (b := { stable := v, cnt := 0#16, edge := Edge.toLevel v }) hraws
      have hbefore : c.dbWindow - 1 - b.cnt.toNat = 0 := by omega
      have hafter : b.cnt.toNat + (raws.length + 1) - c.dbWindow = raws.length := by omega
      rw [hbefore, hafter]
      exact ⟨congrArg (Edge.toLevel v :: ·) hedges, hend⟩
    · have hcount : b.cnt.toNat + 1 < c.dbWindow := by omega
      have hnext := toNat_cnt_succ hcount
      rw [sample_of_count hdiffer hcount]
      obtain ⟨hedges, hend⟩ := ih (b := { stable := b.stable, cnt := b.cnt + 1#16, edge := .none }) hstable hraws
        (by rw [hnext]; exact hcount) (by rw [hnext]; omega)
      have hbefore : c.dbWindow - 1 - b.cnt.toNat = c.dbWindow - 1 - (b.cnt.toNat + 1) + 1 := by omega
      rw [hedges, hnext, hbefore, List.replicate_succ, Nat.add_right_comm]
      exact ⟨rfl, hend⟩

end Sys2Proof.Machine

namespace Sys2Proof.Safety

open Sys2Proof Sys2Proof.Machine

/-! ## Edges from a stable level (R215) -/

theorem alternates_toLevel_cons (st : Bool) (es : List Edge) :
    alternates st (Edge.toLevel (!st) :: es) ↔ alternates (!st) es := by
  cases st <;> simp [alternates, Edge.toLevel]

theorem levelAfter_toLevel_cons (st : Bool) (es : List Edge) :
    levelAfter st (Edge.toLevel (!st) :: es) = levelAfter (!st) es := by
  cases st <;> rfl

/-- Whatever the raw levels, each edge starts at the stable level before it and leads to the one after it. -/
theorem edges_alternate (c : Config) (raws : List Bool) (b : ButtonRegs) :
    alternates b.stable (b.edges c raws) ∧ (b.samples c raws).stable = levelAfter b.stable (b.edges c raws) := by
  induction raws generalizing b with
  | nil => exact ⟨trivial, rfl⟩
  | cons raw raws ih =>
    have hrest := ih (b.sample c raw)
    rw [ButtonRegs.edges_cons, ButtonRegs.samples_cons]
    rcases b.sample_cases c raw with ⟨-, hs⟩ | ⟨-, -, hs⟩ | ⟨-, -, hs⟩ <;> rw [hs] at hrest ⊢
    · exact hrest
    · rw [alternates_toLevel_cons, levelAfter_toLevel_cons]
      exact hrest
    · exact hrest

/-! ## What an operation does to one button -/

theorem isTick_eq_isSome_rawOf (x : Button) (i : Instr) : isTick i = (rawOf x i).isSome := by
  cases i with
  | tick ra rb => cases x <;> rfl
  | iter | dlgret | fade | bset | rdmode | rdbrt | rddisp | reset => rfl

/-- The operation that carries a raw level of the button samples it into that button's registers (R211, R212). -/
theorem exec_button_of_raw {x : Button} {i : Instr} {raw : Bool} {s t : State} (h : exec i s = .next t)
    (hraw : rawOf x i = some raw) : button x t = (button x s).sample s.cfg raw := by
  cases i with
  | tick ra rb => cases h; cases x <;> cases hraw <;> rfl
  | iter | dlgret | fade | bset | rdmode | rdbrt | rddisp | reset => cases hraw

/-- Between samples the button's registers stand but for its edge, which ITER consumes, and but for RESET. -/
theorem exec_button_of_no_raw {x : Button} {i : Instr} {s t : State} (h : exec i s = .next t) (hreset : i ≠ .reset)
    (hraw : rawOf x i = none) : (button x t).consume = (button x s).consume := by
  have htick : isTick i = false := by rw [isTick_eq_isSome_rawOf x, hraw]; rfl
  obtain ⟨-, ⟨-, hA, hB⟩ | ⟨-, hA, hB⟩⟩ := exec_buttons_cases h hreset htick
  · cases x <;> simp [button, hA, hB]
  · cases x <;> simp [button, hA, hB]

/-! ## What a run does to one button -/

/-- The raw levels a run samples on one button's line. -/
def rawsOf (x : Button) (l : List Performed) : List Bool := l.filterMap fun p => rawOf x p.instr

theorem rawsOf_cons_of_some {x : Button} {p : Performed} {raw : Bool} (h : rawOf x p.instr = some raw)
    (l : List Performed) : rawsOf x (p :: l) = raw :: rawsOf x l :=
  List.filterMap_cons_some h

theorem rawsOf_cons_of_none {x : Button} {p : Performed} (h : rawOf x p.instr = none) (l : List Performed) :
    rawsOf x (p :: l) = rawsOf x l :=
  List.filterMap_cons_none h

theorem length_rawsOf (x : Button) (l : List Performed) : (rawsOf x l).length = countTicks l := by
  simp only [rawsOf, List.length_filterMap_eq_countP, countTicks, isTick_eq_isSome_rawOf x]

theorem Holds.rawsOf {c : Config} {x : Button} {v : Bool} {l : List Performed} (h : Holds c x v l) :
    ∀ raw ∈ rawsOf x l, logicalPressed c raw = v := by
  intro raw hraw
  obtain ⟨p, hp, hpraw⟩ := List.mem_filterMap.mp hraw
  exact h p hp raw hpraw

theorem edgesOf_cons_of_next {x : Button} {p : Performed} {l : List Performed} {s u : State}
    (h : performOne p s = .next u) :
    edgesOf x (p :: l) s =
      if (rawOf x p.instr).isSome then (button x u).edge :: edgesOf x l u else edgesOf x l u := by
  rw [edgesOf, h, ← isTick_eq_isSome_rawOf]

/-- Over a run without RESET a button's registers and edges are those its own raw levels alone lead to: whatever comes
between the samples shows at most in the edge that stands at the end (R212). -/
theorem performAll_button (x : Button) {l : List Performed} {s t : State} (hreset : NoReset l)
    (h : performAll l s = .next t) :
    (button x t).consume = ((button x s).samples s.cfg (rawsOf x l)).consume ∧
      edgesOf x l s = (button x s).edges s.cfg (rawsOf x l) := by
  induction l generalizing s with
  | nil => cases h; exact ⟨rfl, rfl⟩
  | cons p ps ih =>
    obtain ⟨u, hu, ht⟩ := performAll_cons h
    obtain ⟨hresetp, hresetps⟩ := List.forall_mem_cons.mp hreset
    have hcfg : u.cfg = s.cfg := (exec_frame (s := withInputs s p) hu).1
    obtain ⟨hend, hedges⟩ := ih hresetps ht
    rw [hcfg] at hend hedges
    rw [edgesOf_cons_of_next hu]
    cases hraw : rawOf x p.instr with
    | some raw =>
      have hsample : button x u = (button x s).sample s.cfg raw := by
        cases x <;> exact exec_button_of_raw (s := withInputs s p) hu hraw
      rw [rawsOf_cons_of_some hraw, ButtonRegs.samples_cons, ButtonRegs.edges_cons, ← hsample]
      exact ⟨hend, congrArg ((button x u).edge :: ·) hedges⟩
    | none =>
      have hkept : (button x u).consume = (button x s).consume := by
        cases x <;> exact exec_button_of_no_raw (s := withInputs s p) hu hresetp hraw
      obtain ⟨hsamples, hsame⟩ := ButtonRegs.samples_congr hkept s.cfg (rawsOf x ps)
      rw [rawsOf_cons_of_none hraw]
      exact ⟨hend.trans hsamples, hedges.trans hsame⟩

theorem performAll_stable (x : Button) {l : List Performed} {s t : State} (hreset : NoReset l)
    (h : performAll l s = .next t) :
    (button x t).stable = ((button x s).samples s.cfg (rawsOf x l)).stable := by
  simpa using congrArg ButtonRegs.stable (performAll_button x hreset h).1

/-! ## The statements -/

/-- Settles O27: samples that do not fill the window only count, and an agreeing one clears the counter. -/
theorem shortRunsProduceNoEdge : Obligations.ShortRunsProduceNoEdge := by
  intro x l s t hcnt hreset hholds hticks h
  obtain ⟨hedges, hstable⟩ := ButtonRegs.samples_of_short hholds.rawsOf
    (by rwa [hcnt, Nat.zero_add, length_rawsOf])
  rw [← performAll_stable x hreset h] at hstable
  refine ⟨?_, hstable, fun ra rb raw hraw hagree => ⟨_, exec_tick ra rb t, ?_⟩⟩
  · rw [(performAll_button x hreset h).2, hedges, length_rawsOf]
  · have hcfg : t.cfg = s.cfg := performAll_keeps (P := fun u => u.cfg = s.cfg)
      (fun p _ u u' hu he => (exec_frame (s := withInputs u p) he).1.trans hu) rfl h
    have hagrees : logicalPressed t.cfg raw = (button x t).stable := by
      rw [hstable, hcfg]
      exact hagree
    rw [exec_button_of_raw (exec_tick ra rb t) hraw, ButtonRegs.sample_of_agree hagrees, hstable]

/-- Settles O28: the samples count up to the window, the one that fills it commits, and the rest agree. -/
theorem heldLevelProducesExactlyOneEdge : Obligations.HeldLevelProducesExactlyOneEdge := by
  intro x v l s t hcnt hstable hreset hholds hticks h
  have hpos : 0 < s.cfg.dbWindow := Nat.succ_pos _
  have hheld := ButtonRegs.samples_of_held hstable hholds.rawsOf (by rwa [hcnt])
    (by rwa [hcnt, Nat.zero_add, length_rawsOf])
  rw [hcnt, length_rawsOf, Nat.sub_zero, Nat.zero_add] at hheld
  rwa [(performAll_button x hreset h).2, performAll_stable x hreset h]

/-- Settles O30: it holds of every sequence of samples, and a run shows a button nothing else. -/
theorem edgesOfAButtonAlternate : Obligations.EdgesOfAButtonAlternate := by
  intro x l s t hreset h
  rw [performAll_stable x hreset h, (performAll_button x hreset h).2]
  exact edges_alternate s.cfg (rawsOf x l) (button x s)

/-- Settles O21, by the three cases of a sample: agreement, a full window, a count. -/
theorem tickSamplesEachButton : Obligations.TickSamplesEachButton := by
  intro ra rb s
  refine ⟨_, exec_tick ra rb s, fun x raw p hraw hp => ?_⟩
  rw [exec_button_of_raw (exec_tick ra rb s) hraw]
  subst hp
  exact ⟨ButtonRegs.sample_of_agree, ButtonRegs.sample_of_commit, ButtonRegs.sample_of_count⟩

/-- Settles O29: the reset state is released with a counter of 0, so a held button is a new level. -/
theorem buttonHeldThroughResetIsANewPress : Obligations.ButtonHeldThroughResetIsANewPress := by
  intro c x l t hreset hholds hticks h
  have hbutton : button x (State.resetWith c) = ButtonRegs.reset := by cases x <;> rfl
  have hheld := heldLevelProducesExactlyOneEdge x true l (State.resetWith c) t (by rw [hbutton]; rfl)
    (by rw [hbutton]; rfl) hreset hholds hticks.ge h
  rwa [hticks, State.resetWith_cfg, Nat.sub_self] at hheld

/-- Settles O24: a sample does not read the edge it overwrites. -/
theorem tickForgetsUntakenEdges : Obligations.TickForgetsUntakenEdges := by
  intro ra rb eA eB s
  simp only [exec_tick, ButtonRegs.sample_edge_irrelevant]

end Sys2Proof.Safety

/-! Proofs of the statements about TICK's parts and RESET (43_tick_and_reset.md): the parts write disjoint registers, so
they commute, and a list of functions that commute may be applied in any order. -/

namespace Sys2Proof.Machine

open Sys2Proof

/-! ## The parts of TICK write disjoint registers (R231) -/

theorem State.pwmPart_commute_samplePartA (ra : Bool) : Function.Commute State.pwmPart (State.samplePartA ra) := fun _ => rfl

theorem State.pwmPart_commute_samplePartB (rb : Bool) : Function.Commute State.pwmPart (State.samplePartB rb) := fun _ => rfl

theorem State.pwmPart_commute_countPart : Function.Commute State.pwmPart State.countPart := fun _ => rfl

theorem State.samplePartA_commute_samplePartB (ra rb : Bool) :
    Function.Commute (State.samplePartA ra) (State.samplePartB rb) := fun _ => rfl

theorem State.samplePartA_commute_countPart (ra : Bool) :
    Function.Commute (State.samplePartA ra) State.countPart := fun _ => rfl

theorem State.samplePartB_commute_countPart (rb : Bool) :
    Function.Commute (State.samplePartB rb) State.countPart := fun _ => rfl

/-- The four parts of TICK, in the order R230 writes them. -/
def tickParts (ra rb : Bool) : List (State → State) :=
  [State.pwmPart, State.samplePartA ra, State.samplePartB rb, State.countPart]

theorem exec_tick_eq_foldl_tickParts (ra rb : Bool) (s : State) :
    exec (.tick ra rb) s = .next ((tickParts ra rb).foldl (fun u part => part u) s) := rfl

theorem pairwise_commute_tickParts (ra rb : Bool) : (tickParts ra rb).Pairwise Function.Commute := by
  simp [tickParts, State.pwmPart_commute_samplePartA, State.pwmPart_commute_samplePartB,
    State.pwmPart_commute_countPart, State.samplePartA_commute_samplePartB, State.samplePartA_commute_countPart,
    State.samplePartB_commute_countPart]

/-- Functions that commute pairwise may be applied in any order. -/
theorem foldl_apply_eq_of_perm {α : Type} {fs gs : List (α → α)} (hperm : fs.Perm gs)
    (hcomm : gs.Pairwise Function.Commute) (a : α) :
    fs.foldl (fun u f => f u) a = gs.foldl (fun u f => f u) a := by
  have hall : ∀ ⦃f⦄, f ∈ gs → ∀ ⦃g⦄, g ∈ gs → Function.Commute f g :=
    hcomm.forall_of_forall_of_flip (fun f _ => .refl f) (hcomm.imp .symm)
  exact (hperm.symm.foldl_eq' (fun f hf g hg u => hall hg hf u) a).symm

/-! ## The registers RESET leaves (R232, R270) -/

theorem State.resetRegisters_sameRegisters_resetWith (s : State) :
    Safety.SameRegisters s.resetRegisters (State.resetWith s.cfg) :=
  ⟨rfl, rfl, rfl, rfl, rfl, rfl⟩

/-- RESET leaves what is no register of the block: the parameters, the marks and the ports. -/
theorem State.resetRegisters_frame (s : State) :
    s.resetRegisters =
      { s with btnA := s.resetRegisters.btnA, btnB := s.resetRegisters.btnB, brt := s.resetRegisters.brt,
               tcnt := s.resetRegisters.tcnt, fsm := s.resetRegisters.fsm } := rfl

end Sys2Proof.Machine

namespace Sys2Proof.Safety

open Sys2Proof Sys2Proof.Machine

/-! ## The statements -/

/-- Settles O23: TICK applies its parts in R230's order, and they commute. -/
theorem tickPartsMayComeInAnyOrder : Obligations.TickPartsMayComeInAnyOrder := by
  intro ra rb s parts hperm
  rw [exec_tick_eq_foldl_tickParts, foldl_apply_eq_of_perm hperm (pairwise_commute_tickParts ra rb) s, tickParts]

/-- Settles O54, by the state RESET completes in. -/
theorem resetOperationGivesThePowerOnState : Obligations.ResetOperationGivesThePowerOnState := fun s =>
  ⟨s.resetRegisters, exec_reset s, s.resetRegisters_sameRegisters_resetWith, s.resetRegisters_frame⟩

end Sys2Proof.Safety

/-! Proofs of the statements about faults and refusals (60_exceptions.md): which operation faults, at which step a fault can
arise, the mark it leaves, and the quiescence after it. -/

namespace Sys2Proof.Machine

open Sys2Proof

/-! ## Which operations fault (R240, R241) -/

/-- The faults of ITER and DLGRET in the two values of PENDING; every other operation completes. -/
theorem exec_eq_fault_iff (i : Instr) (s : State) (f : Fault) :
    exec i s = .fault f ↔
      (i = .iter ∧ s.fsm.pending = true ∧ f = .protoIterWhilePending 0x2000#16) ∨
      (∃ req disp, i = .dlgret req disp ∧ s.fsm.pending = false ∧ f = .protoRetWithoutDispatch (encode i) disp) := by
  cases i with
  | iter =>
    have hword : encode .iter = 0x2000#16 := by decide
    cases hp : s.fsm.pending with
    | false => simp [exec_iter_of_not_pending hp]
    | true => simp [exec_iter_of_pending hp, hword, eq_comm]
  | dlgret req disp =>
    cases hp : s.fsm.pending with
    | false => simp [exec_dlgret_of_not_pending req disp hp, eq_comm]
    | true => simp [exec_dlgret_of_pending req disp hp]
  | tick => simp [exec_tick]
  | fade => simp [exec_fade]
  | bset => simp [exec_bset]
  | rdmode => simp [exec_rdmode]
  | rdbrt => simp [exec_rdbrt]
  | rddisp => simp [exec_rddisp]
  | reset => simp [exec_reset]

/-! ## Where a step faults -/

/-- A halted state is quiescent (R243). -/
theorem step_of_halted {s : State} (h : s.halted = true) : step s = .next s := by
  simp [step, stepOn, h]

theorem step_of_stream_nil {s : State} (h : s.stream = []) : step s = .next s := by
  simp [step, stepOn, h]

/-- A step faults only in a running state, at a presented operation that decodes and whose meaning faults (R251). -/
theorem step_fault_cases {s : State} {f : Fault} (h : step s = .fault f) :
    ∃ p rest i, s.halted = false ∧ s.stream = p :: rest ∧ p.decode = .ok i ∧ exec i (s.take p rest) = .fault f := by
  cases hh : s.halted with
  | true => rw [step_of_halted hh] at h; cases h
  | false =>
    cases hs : s.stream with
    | nil => rw [step_of_stream_nil hs] at h; cases h
    | cons p rest =>
      rw [step_of_stream_cons hh hs] at h
      cases hd : p.decode with
      | error e => rw [perform_of_error hd] at h; cases h
      | ok i => rw [perform_of_decode hd] at h; exact ⟨p, rest, i, rfl, rfl, hd, h⟩

/-! ## The marks (R240, R242, R243) -/

theorem State.halted_iff (s : State) : s.halted = true ↔ s.faultMark ≠ [] ∨ s.refusalMark = true := by
  simp [State.halted]

theorem advance_of_next {s t : State} (h : step s = .next t) : advance s = t := by
  rw [advance, h, settle]

theorem advance_of_fault {s : State} {f : Fault} (h : step s = .fault f) : advance s = s.recordFault f := by
  rw [advance, h, settle]

theorem advance_of_refused {s : State} {r : Refusal} (h : step s = .refused r) : advance s = s.recordRefusal := by
  rw [advance, h, settle]

/-- The fault mark is a set: the reason is added, and no reason is lost (R240). -/
theorem State.mem_recordFault_faultMark (s : State) (f g : Fault) :
    g ∈ (s.recordFault f).faultMark ↔ g = f ∨ g ∈ s.faultMark := by
  rw [State.recordFault_faultMark]
  split
  next hf => exact ⟨.inr, fun h => h.elim (fun hg => hg ▸ hf) id⟩
  next => exact List.mem_cons

theorem State.recordFault_halted (s : State) (f : Fault) : (s.recordFault f).halted = true := by
  have hmem : f ∈ (s.recordFault f).faultMark := (s.mem_recordFault_faultMark f f).mpr (.inl rfl)
  exact (State.halted_iff _).mpr (.inl (List.ne_nil_of_mem hmem))

theorem State.recordRefusal_halted (s : State) : s.recordRefusal.halted = true :=
  (State.halted_iff _).mpr (.inr s.recordRefusal_refusalMark)

end Sys2Proof.Machine

namespace Sys2Proof.Safety

open Sys2Proof Sys2Proof.Machine

/-- A state that steps to itself is the end of every run from it. -/
theorem runSteps_of_step_self {s : State} (h : step s = .next s) (n : Nat) : runSteps n s = .next s := by
  induction n with
  | zero => rfl
  | succ n ih => rw [runSteps, h]; exact ih

/-! ## The statements -/

/-- Settles O13: a fault can only come from the meaning of a decoded operation. -/
theorem refusalComesBeforeTheFaultCheck : Obligations.RefusalComesBeforeTheFaultCheck := by
  intro s p rest f hs h
  obtain ⟨q, qs, i, -, hq, hd, -⟩ := step_fault_cases h
  obtain ⟨rfl, -⟩ := List.cons.inj (hs.symm.trans hq)
  exact ⟨i, hd⟩

/-- Settles O14: the state after a fault or a refusal is the one the recording of its mark leaves. -/
theorem faultAndRefusalWriteOnlyTheirMark : Obligations.FaultAndRefusalWriteOnlyTheirMark := by
  constructor
  · intro s f h
    rw [advance_of_fault h]
    exact ⟨(s.recordFault f).faultMark, rfl, s.mem_recordFault_faultMark f, s.recordFault_halted f⟩
  · intro s r h
    rw [advance_of_refused h]
    exact ⟨rfl, s.recordRefusal_halted⟩

/-- Settles O15: a marked state is halted and so steps to itself. -/
theorem haltedStateIsQuiescent : Obligations.HaltedStateIsQuiescent := by
  intro s n hmarked
  have hstep : step s = .next s := step_of_halted (s.halted_iff.mpr hmarked)
  exact ⟨runSteps_of_step_self hstep n, advance_of_next hstep⟩

/-- Settles O16, by the faults of each operation's meaning. -/
theorem onlyProtocolViolationsFault : Obligations.OnlyProtocolViolationsFault := fun i s =>
  ⟨exec_eq_fault_iff i s, exec_ne_refused i s⟩

end Sys2Proof.Safety

/-! Proof of the statement about the reset state (70_reset_and_hazards.md R270): the values of its registers and its
invariants. -/

namespace Sys2Proof.Safety

open Sys2Proof Sys2Proof.Machine

/-- Reset puts both buttons in the same state (R270). -/
@[simp] theorem button_resetWith (x : Button) (c : Config) : button x (State.resetWith c) = ButtonRegs.reset := by
  cases x with
  | A => exact State.resetWith_btnA c
  | B => exact State.resetWith_btnB c

/-! ## The statement -/

/-- Settles O53: the invariants are those of `resetWith`, and the registers' values are read off their reset records. -/
theorem resetStateIsTheTable : Obligations.ResetStateIsTheTable := by
  constructor
  · exact congrArg State.resetWith (State.resetWith_cfg Config.machine).symm
  · intro c x
    exact ⟨invariants_resetWith c, by simp [ButtonRegs.reset, BrightRegs.reset, ModeRegs.reset]⟩

end Sys2Proof.Safety
